-- ==== Sys2Proof/Word.lean ====
section
/-! DEFINITION. The word types of the block: u8 and u32 of R14 (00_scope.md, section 5.1). -/

namespace Sys2Proof

/-- `u8`: a register, a command byte, a datagram byte (R11, 00_scope.md). -/
abbrev Byte := BitVec 8

/-- `u32`: the `value` operand of a short code (R11, 00_scope.md). -/
abbrev Code := BitVec 32

end Sys2Proof
end

