-- ==== Sys2Proof/Syntax.lean ====
section
/-! DEFINITION. The nine commands of the block: one constructor for each row of spec/opcode_table.json
(R72, 30_encoding.md), with the operands its own rule names. -/

namespace Sys2Proof

/-- A command of the block. `Mark` and `Space` are not commands (R73, 30_encoding.md). -/
inductive Instr where
  /-- `SENDDG b0, …, b7`: the 8-byte bulk datagram (R140, 42_sony_datagram.md). -/
  | senddg (b0 b1 b2 b3 b4 b5 b6 b7 : Byte)
  /-- `SETFREQ fh, fl, dp`: carrier parameters from a frequency and a percentage (R122, 41_timer_control.md). -/
  | setfreq (fh fl dp : Byte)
  /-- `SENDRAW a0, a1`: the 12-bit bus form of the short Sony code (R144, 42_sony_datagram.md). -/
  | sendraw (a0 a1 : Byte)
  /-- `CARRIER en`: continuous carrier on or off (R125, 41_timer_control.md). -/
  | carrier (en : Byte)
  /-- `SETTIMING p, d`: carrier parameters as given (R120, 41_timer_control.md). -/
  | settiming (p d : Byte)
  /-- `SENDSONY value, n`: the short Sony code (R142, 42_sony_datagram.md). -/
  | sendsony (value : Code) (n : Byte)
  /-- `SENDNEC value, n` (R160, 43_nec_rc5_rc6.md). -/
  | sendnec (value : Code) (n : Byte)
  /-- `SENDRC5 value, n` (R162, 43_nec_rc5_rc6.md). -/
  | sendrc5 (value : Code) (n : Byte)
  /-- `SENDRC6 value, n` (R164, 43_nec_rc5_rc6.md). -/
  | sendrc6 (value : Code) (n : Byte)
  deriving DecidableEq, Repr

/-- The send commands: those that start a transmission (R105, 40_pulse_primitives.md). -/
def Instr.isSend : Instr → Bool
  | .senddg _ _ _ _ _ _ _ _ => true
  | .setfreq _ _ _ => false
  | .sendraw _ _ => true
  | .carrier _ => false
  | .settiming _ _ => false
  | .sendsony _ _ => true
  | .sendnec _ _ => true
  | .sendrc5 _ _ => true
  | .sendrc6 _ _ => true

end Sys2Proof
end

