-- ==== Sys2Proof/WellFormed.lean ====
section
/-! DEFINITION. Which commands have no reserved operand (R81, 30_encoding.md). A reserved command is
still a command: it decodes, and its meaning refuses it by name. -/

namespace Sys2Proof

/-- A legal `bit_count` is 1 to 32 (R81, 30_encoding.md). -/
def bitCountLegal (n : Byte) : Bool := decide (1 ≤ n.toNat ∧ n.toNat ≤ 32)

/-- No operand of the command is reserved. Only the `n` of the four short codes can be (R81, 30_encoding.md):
every other operand value of every command is legal. -/
def Instr.wellFormed : Instr → Bool
  | .senddg _ _ _ _ _ _ _ _ => true
  | .setfreq _ _ _ => true
  | .sendraw _ _ => true
  | .carrier _ => true
  | .settiming _ _ => true
  | .sendsony _ n => bitCountLegal n
  | .sendnec _ n => bitCountLegal n
  | .sendrc5 _ n => bitCountLegal n
  | .sendrc6 _ n => bitCountLegal n

end Sys2Proof
end

