-- ==== Sys2Proof/Decode.lean ====
section
/-! DEFINITION. The byte encoding of the commands (30_encoding.md): the opcode map, a decoder that is total on every
byte string and rejects by name, and the encoder. Byte 0 of a string is the first byte presented at the port. -/

namespace Sys2Proof

/-- The nine rows of the opcode map (R72, 30_encoding.md). -/
inductive Opcode where
  | senddg | setfreq | sendraw | carrier | settiming | sendsony | sendnec | sendrc5 | sendrc6
  deriving DecidableEq, Repr

/-- The value of `c0` that selects the row (R72, 30_encoding.md). -/
def Opcode.byte : Opcode → Byte
  | .senddg => 0x21#8
  | .setfreq => 0x23#8
  | .sendraw => 0x24#8
  | .carrier => 0x25#8
  | .settiming => 0x80#8
  | .sendsony => 0x81#8
  | .sendnec => 0x82#8
  | .sendrc5 => 0x83#8
  | .sendrc6 => 0x84#8

/-- The number of operand bytes of the row's format (R71, R72, 30_encoding.md). -/
def Opcode.operandBytes : Opcode → Nat
  | .senddg => 8
  | .setfreq => 3
  | .sendraw => 2
  | .carrier => 1
  | .settiming => 2
  | .sendsony => 5
  | .sendnec => 5
  | .sendrc5 => 5
  | .sendrc6 => 5

/-- The opcode map (R72, 30_encoding.md). -/
def opcodeMap : List Opcode :=
  [.senddg, .setfreq, .sendraw, .carrier, .settiming, .sendsony, .sendnec, .sendrc5, .sendrc6]

/-- The row a first byte selects, if it is one of the nine (R72, R82, 30_encoding.md). -/
def opcodeOf (c0 : Byte) : Option Opcode := opcodeMap.find? fun o => o.byte == c0

/-- `value = {v3, v2, v1, v0}`, `v3` the most significant byte (R79, 30_encoding.md). -/
def valueOf (v3 v2 v1 v0 : Byte) : Code := v3 ++ v2 ++ v1 ++ v0

/-- Byte `k` of a 32-bit value, byte 0 the least significant. -/
def byteOfValue (v : Code) (k : Nat) : Byte := v.extractLsb' (8 * k) 8

/-- What the decoder reads from a byte string. -/
inductive Decoded where
  /-- A whole command, and the bytes after it, which "belong to the next command" (R80, 30_encoding.md). -/
  | command (i : Instr) (rest : List Byte)
  /-- No whole command is there: the empty string, or a string "shorter than its opcode's format" (R80, 30_encoding.md). -/
  | incomplete
  /-- The first byte is none of the nine opcodes (R82, 30_encoding.md). -/
  | notACommand
  deriving DecidableEq, Repr

/-- The operands of a row from the bytes after its opcode (R71, R75, R77 to R79, 30_encoding.md). -/
def assemble : Opcode → List Byte → Decoded
  | .senddg, b0 :: b1 :: b2 :: b3 :: b4 :: b5 :: b6 :: b7 :: rest => .command (.senddg b0 b1 b2 b3 b4 b5 b6 b7) rest
  | .setfreq, fh :: fl :: dp :: rest => .command (.setfreq fh fl dp) rest
  | .sendraw, a0 :: a1 :: rest => .command (.sendraw a0 a1) rest
  | .carrier, en :: rest => .command (.carrier en) rest
  | .settiming, p :: d :: rest => .command (.settiming p d) rest
  | .sendsony, v3 :: v2 :: v1 :: v0 :: n :: rest => .command (.sendsony (valueOf v3 v2 v1 v0) n) rest
  | .sendnec, v3 :: v2 :: v1 :: v0 :: n :: rest => .command (.sendnec (valueOf v3 v2 v1 v0) n) rest
  | .sendrc5, v3 :: v2 :: v1 :: v0 :: n :: rest => .command (.sendrc5 (valueOf v3 v2 v1 v0) n) rest
  | .sendrc6, v3 :: v2 :: v1 :: v0 :: n :: rest => .command (.sendrc6 (valueOf v3 v2 v1 v0) n) rest
  | _, _ => .incomplete

/-- "A decoder reads `c0`, finds the row, and takes the row's number of operand bytes" (R72, 30_encoding.md). -/
def decode : List Byte → Decoded
  | [] => .incomplete
  | c0 :: operands =>
    match opcodeOf c0 with
    | none => .notACommand
    | some o => assemble o operands

/-- The bytes of a 32-bit value, most significant first, and the count byte: format `B5` (R71, R79, 30_encoding.md). -/
def encodeShort (c0 : Byte) (value : Code) (n : Byte) : List Byte :=
  [c0, byteOfValue value 3, byteOfValue value 2, byteOfValue value 1, byteOfValue value 0, n]

/-- The bytes of a command, written from R71 and R72 (30_encoding.md). -/
def encode : Instr → List Byte
  | .senddg b0 b1 b2 b3 b4 b5 b6 b7 => [0x21#8, b0, b1, b2, b3, b4, b5, b6, b7]
  | .setfreq fh fl dp => [0x23#8, fh, fl, dp]
  | .sendraw a0 a1 => [0x24#8, a0, a1]
  | .carrier en => [0x25#8, en]
  | .settiming p d => [0x80#8, p, d]
  | .sendsony value n => encodeShort 0x81#8 value n
  | .sendnec value n => encodeShort 0x82#8 value n
  | .sendrc5 value n => encodeShort 0x83#8 value n
  | .sendrc6 value n => encodeShort 0x84#8 value n

/-- The number of bytes of the command a first byte begins (R70, 30_encoding.md); 9, the longest, where it begins none. -/
def commandLength (c0 : Byte) : Nat :=
  match opcodeOf c0 with
  | none => 9
  | some o => o.operandBytes + 1

/-- The bytes of an instruction whose bits are `w`, numbered as spec/opcode_table.json numbers them (bit 0 the least
significant bit of the first byte), with every bit above `nbits` zero; as many bytes as the command has. -/
def bytesOfWord (nbits w : Nat) : List Byte :=
  let bits := w % 2 ^ nbits
  (List.range (commandLength (BitVec.ofNat 8 bits))).map fun k => BitVec.ofNat 8 (bits / 2 ^ (8 * k))

/-- The instruction the decoder reads from an instruction whose bits are `w`. -/
def decodeTableWord (nbits w : Nat) : Option Instr :=
  match decode (bytesOfWord nbits w) with
  | .command i _ => some i
  | .incomplete => none
  | .notACommand => none

end Sys2Proof
end

