-- ==== Sys2Proof/Config.lean ====
section
/-! DEFINITION. The configuration record `Cfg` (R8, 00_scope.md), the one configuration of the machine,
every field of it left open, and the free values. An `opaque` constant here has no body: nothing can be
proved of its value, so a claim about the machine holds for every configuration R8 admits. -/

namespace Sys2Proof

/-- Which of the two `$` arguments is the high byte of the 12-bit code: `RAWCODE_ORDER` (R8, 00_scope.md). -/
inductive RawcodeOrder where
  /-- `w = {a0, a1}`. -/
  | BE
  /-- `w = {a1, a0}`. -/
  | LE
  deriving DecidableEq, Repr, Inhabited

/-- The implementation parameters of R8 (00_scope.md). Durations are natural numbers of `TU` (R10). -/
structure Cfg where
  /-- `CLOCK_HZ`, the carrier timer's count rate. -/
  clockHz : Nat
  dgHdrMark : Nat
  dgHdrSpace : Nat
  dgOneMark : Nat
  dgZeroMark : Nat
  dgBitSpace : Nat
  sonyHdrMark : Nat
  sonyHdrSpace : Nat
  sonyOneMark : Nat
  sonyZeroMark : Nat
  sonyBitSpace : Nat
  necHdrMark : Nat
  necHdrSpace : Nat
  necBitMark : Nat
  necOneSpace : Nat
  necZeroSpace : Nat
  /-- `RC5_T1`, the RC5 half-bit time. -/
  rc5T1 : Nat
  rc6HdrMark : Nat
  rc6HdrSpace : Nat
  /-- `RC6_T1`, the RC6 half-bit time. -/
  rc6T1 : Nat
  /-- `RAWCODE_ORDER`. -/
  rawcodeOrder : RawcodeOrder
  deriving DecidableEq, Repr

/-- The constraints R8 and R9 (00_scope.md) put on a configuration. -/
abbrev Cfg.Valid (c : Cfg) : Prop :=
  0 < c.clockHz ∧ c.dgZeroMark < c.dgOneMark ∧ c.sonyZeroMark < c.sonyOneMark ∧ c.necZeroSpace < c.necOneSpace

namespace Config

/-- `CLOCK_HZ` less one (D18 leaves it open; it is positive). -/
opaque clockHzPred : Nat
opaque dgHdrMark : Nat
opaque dgHdrSpace : Nat
opaque dgZeroMark : Nat
/-- How much longer than `dgZeroMark + 1` the datagram's one mark is (R9, 00_scope.md). -/
opaque dgOneExcess : Nat
opaque dgBitSpace : Nat
opaque sonyHdrMark : Nat
opaque sonyHdrSpace : Nat
opaque sonyZeroMark : Nat
/-- How much longer than `sonyZeroMark + 1` the short Sony code's one mark is (R8, 00_scope.md). -/
opaque sonyOneExcess : Nat
opaque sonyBitSpace : Nat
opaque necHdrMark : Nat
opaque necHdrSpace : Nat
opaque necBitMark : Nat
opaque necZeroSpace : Nat
/-- How much longer than `necZeroSpace + 1` the NEC one space is (R8, 00_scope.md; general knowledge, log 5). -/
opaque necOneExcess : Nat
opaque rc5T1 : Nat
opaque rc6HdrMark : Nat
opaque rc6HdrSpace : Nat
opaque rc6T1 : Nat
/-- `RAWCODE_ORDER`, left open (D11; log 6). -/
opaque rawcodeOrder : RawcodeOrder

/-- The machine's configuration, fixed for a run (R34, 10_state.md). The three ordering constraints hold by the way
the three fields are built; every configuration that meets them is one of these (log 5). -/
def cfg : Cfg where
  clockHz := clockHzPred + 1
  dgHdrMark := dgHdrMark
  dgHdrSpace := dgHdrSpace
  dgOneMark := dgZeroMark + 1 + dgOneExcess
  dgZeroMark := dgZeroMark
  dgBitSpace := dgBitSpace
  sonyHdrMark := sonyHdrMark
  sonyHdrSpace := sonyHdrSpace
  sonyOneMark := sonyZeroMark + 1 + sonyOneExcess
  sonyZeroMark := sonyZeroMark
  sonyBitSpace := sonyBitSpace
  necHdrMark := necHdrMark
  necHdrSpace := necHdrSpace
  necBitMark := necBitMark
  necOneSpace := necZeroSpace + 1 + necOneExcess
  necZeroSpace := necZeroSpace
  rc5T1 := rc5T1
  rc6HdrMark := rc6HdrMark
  rc6HdrSpace := rc6HdrSpace
  rc6T1 := rc6T1
  rawcodeOrder := rawcodeOrder

/-- FREE VALUE: the `k`-th byte drawn by resets for an `any u8` of the spec (R14 section 5.1, 00_scope.md; R36, 10_state.md; log 3). -/
opaque anyByte : Nat → Byte

/-- FREE VALUE: what SETFREQ stores in `IR_PERIOD` where its result is `any u8` (R122, 41_timer_control.md), for its operands; `era` tells the time
after one reset from the time after another. Repeating the command leaves the register as it was (R59, 20_memory.md; log 3). -/
opaque openPeriod : (era : Nat) → (fh fl dp : Byte) → Byte

/-- FREE VALUE: what SETFREQ stores in `IR_DUTY` where its result is `any u8`, as `openPeriod` (log 3). -/
opaque openDuty : (era : Nat) → (fh fl dp : Byte) → Byte

/-- FREE VALUE: what `CarrierShape` (R8, 00_scope.md) drives onto the output at count `count` of one repetition of
the carrier timer, for a clock rate, a period and a duty value (log 7). -/
opaque carrierCycle : (clockHz : Nat) → (period duty : Byte) → (count : Nat) → Bool

/-- FREE VALUE: the idle level of `ir_out`; "Which electrical level is idle is not in the source" (R35, 10_state.md; log 7). -/
opaque idleLevel : Bool

end Config

end Sys2Proof
end

