-- ==== Sys2Proof/Machine/State.lean ====
section
/-! DEFINITION. The state of the block as plain data (10_state.md; R105, 40_pulse_primitives.md), the reasons a step can
stop, and the state after reset (R36, 10_state.md). -/

namespace Sys2Proof.Machine

/-- The five schemes (R3, 00_scope.md). -/
inductive Scheme where
  | DG | SONY | NEC | RC5 | RC6
  deriving DecidableEq, Repr

/-- A pulse of a pulse list: `MARK(d)` or `SPACE(d)`, `d` in `TU` (R28, 10_state.md; R103, 40_pulse_primitives.md). -/
inductive Pulse where
  | mark (d : Nat)
  | space (d : Nat)
  deriving DecidableEq, Repr

/-- The events of `TRACE` (R33, 10_state.md). -/
inductive Event where
  /-- A send command was accepted; `p`, `d` are `ACT_PERIOD`, `ACT_DUTY` after the latch. -/
  | txstart (scheme : Scheme) (p d : Byte)
  /-- `GATE` driven to 1 for `n` `TU`. -/
  | mark (n : Nat)
  /-- `GATE` driven to 0 for `n` `TU`. -/
  | space (n : Nat)
  /-- The transmission's last pulse has elapsed. -/
  | txend
  /-- A `CARRIER` command set `GATE` to `on`; `p`, `d` are `ACT_PERIOD`, `ACT_DUTY` after it. -/
  | carrier (on : Bool) (p d : Byte)
  /-- The block was reset. -/
  | reset
  deriving DecidableEq, Repr

/-- The machine's state: the block's own state (R105, 40_pulse_primitives.md: five registers, `Q`, `TRACE`, `NOW`), the two inputs a
step reads, held as plain data, and the model's counter of free bytes. -/
structure State where
  /-- `IR_PERIOD`, `x[0]` (R21, 10_state.md). -/
  irPeriod : Byte
  /-- `IR_DUTY`, `x[1]` (R22, 10_state.md). -/
  irDuty : Byte
  /-- `ACT_PERIOD`, `x[2]` (R23, 10_state.md). -/
  actPeriod : Byte
  /-- `ACT_DUTY`, `x[3]` (R23, 10_state.md). -/
  actDuty : Byte
  /-- `STATUS`, `x[4]`: bit 0 `GATE`, bit 1 `BUSY`, bits 7:2 hardwired 0 (R24, 10_state.md; log 14). -/
  status : Byte
  /-- `Q`, the pulses still to be emitted, head first (R28, 10_state.md). -/
  q : List Pulse
  /-- `TRACE`, ghost, oldest event first (R31, 10_state.md). -/
  trace : List Event
  /-- `NOW`, ghost clock in `TU` (R32, 10_state.md). -/
  now : Nat
  /-- INPUT: the bytes the host still presents at the command port (R51, 20_memory.md; log 1). -/
  port : List Byte
  /-- INPUT: the samples of `rst`, one for each coming step; none left means released (R51, 20_memory.md; log 2). -/
  rstLine : List Bool
  /-- MODEL: how many free bytes resets have drawn; it also tells one reset's free values of SETFREQ from another's (log 3). -/
  draws : Nat
  deriving DecidableEq, Repr

/-- The block raises no exception and nothing is fatal (R200, 60_exceptions.md): no step faults, so there is no fault
(93_implementation_defined.md, end of part 1; log 18). Safe: no behaviour of the spec is a fault. -/
inductive Fault where
  deriving DecidableEq, Repr

/-- Why the model gives an input no meaning (`refuse`, R14 section 5.2, 00_scope.md). -/
inductive Refusal where
  /-- An instruction that has no meaning yet. No arm of `exec` raises it. Safe. -/
  | notModelled (mnemonic : String)
  /-- Raised by `step` when the first byte at the port is none of the nine opcodes (R82, 30_encoding.md). Safe. -/
  | notAnEncoderCommand
  /-- Raised by SENDSONY, SENDNEC, SENDRC5 and SENDRC6 for `n = 0` or `n > 32` (R81, 30_encoding.md). Safe. -/
  | bitCountOutOfRange
  deriving DecidableEq, Repr

/-- The state right after the first reset (R36, 10_state.md; R230, 70_reset_and_hazards.md). The four carrier registers are `any u8`: four
free values, drawn once (log 4). No command is presented and `rst` is released (log 12). -/
def State.reset : State where
  irPeriod := Config.anyByte 0
  irDuty := Config.anyByte 1
  actPeriod := Config.anyByte 2
  actDuty := Config.anyByte 3
  status := 0#8
  q := []
  trace := [.reset]
  now := 0
  port := []
  rstLine := []
  draws := 4

end Sys2Proof.Machine
end

