-- ==== Sys2Proof/Machine/Flags.lean ====
section
/-! DEFINITION. The two flags, `GATE` and `BUSY`, and the register `STATUS` that holds them (R24 to R26, R37, 10_state.md). -/

namespace Sys2Proof.Machine

/-- `STATUS` as a word: `{000000, BUSY, GATE}`, bits 7:2 hardwired 0 (R24, 10_state.md). -/
def statusWord (gate busy : Bool) : Byte := 0#6 ++ BitVec.ofBool busy ++ BitVec.ofBool gate

/-- `GATE`, bit 0 of `STATUS` (R25, 10_state.md). -/
def State.gate (s : State) : Bool := s.status.getLsbD 0

/-- `BUSY`, bit 1 of `STATUS` (R26, 10_state.md). -/
def State.busy (s : State) : Bool := s.status.getLsbD 1

/-- `GATE <- g`. -/
def State.setGate (g : Bool) (s : State) : State := { s with status := statusWord g s.busy }

/-- `BUSY <- b`. -/
def State.setBusy (b : Bool) (s : State) : State := { s with status := statusWord s.gate b }

end Sys2Proof.Machine
end

