-- ==== Sys2Proof/Machine/Ops.lean ====
section
/-! DEFINITION. The shared operations: the register file, `emit`, `LatchCarrier`, the pulse primitives, the transmission bracket, the
steps `Pulse`, `Finish` and `Reset`, and the two inputs of the block (10_state.md, 40_pulse_primitives.md, 70_reset_and_hazards.md).
The block has no memory (R50, 20_memory.md) and takes no exception (R200, R207, 60_exceptions.md), so no such operation exists. -/

namespace Sys2Proof.Machine

/-! ### The register file (R20, 10_state.md) -/

/-- The five registers. -/
inductive Reg where
  | IR_PERIOD | IR_DUTY | ACT_PERIOD | ACT_DUTY | STATUS
  deriving DecidableEq, Repr

/-- Register numbers 0 to 4 are the whole map; 5 and above name nothing (R60, 20_memory.md). -/
def Reg.ofNumber : Nat → Option Reg
  | 0 => some .IR_PERIOD
  | 1 => some .IR_DUTY
  | 2 => some .ACT_PERIOD
  | 3 => some .ACT_DUTY
  | 4 => some .STATUS
  | _ => none

/-- `x[i]`, what register `i` holds; bits 7:2 of `STATUS` are 0 whatever happens (R24, 10_state.md). An observer's view: no command reads
a register (R30, 10_state.md). -/
def State.x (s : State) : Reg → Byte
  | .IR_PERIOD => s.irPeriod
  | .IR_DUTY => s.irDuty
  | .ACT_PERIOD => s.actPeriod
  | .ACT_DUTY => s.actDuty
  | .STATUS => statusWord s.gate s.busy

/-! ### Primitives (R14 section 5.3, 00_scope.md) -/

/-- `emit(ev)`: append an event to `TRACE` (R31, 10_state.md). -/
def State.emit (ev : Event) (s : State) : State := { s with trace := s.trace ++ [ev] }

/-- `IR_PERIOD <- p; IR_DUTY <- d` in one step (R59, 20_memory.md). -/
def State.setIr (p d : Byte) (s : State) : State := { s with irPeriod := p, irDuty := d }

/-- `LatchCarrier` (R23, 10_state.md). -/
def State.latchCarrier (s : State) : State := { s with actPeriod := s.irPeriod, actDuty := s.irDuty }

/-- `Q <- ps`. -/
def State.setQ (ps : List Pulse) (s : State) : State := { s with q := ps }

/-- `NOW <- NOW + d` (R32, 10_state.md). -/
def State.advance (d : Nat) (s : State) : State := { s with now := s.now + d }

/-- The `k`-th of the free bytes not drawn yet (`any u8`, R14 section 5.1, 00_scope.md; log 3). -/
def State.freeByte (s : State) (k : Nat) : Byte := Config.anyByte (s.draws + k)

/-! ### The pulse primitives -/

/-- `Mark(d)` (R100, 40_pulse_primitives.md). -/
def State.mark (d : Nat) (s : State) : State := ((s.setGate true).emit (.mark d)).advance d

/-- `Space(d)` (R101, 40_pulse_primitives.md). -/
def State.space (d : Nat) (s : State) : State := ((s.setGate false).emit (.space d)).advance d

/-- Perform one element of a pulse list (R104, 40_pulse_primitives.md). -/
def State.perform : Pulse → State → State
  | .mark d, s => s.mark d
  | .space d, s => s.space d

/-! ### The transmission bracket -/

/-- What `Issue` of a send command does: `LatchCarrier`, `BUSY <- 1`, `Q <- ps`, `emit(TXSTART)` (R105, 40_pulse_primitives.md). -/
def State.startTransmit (sch : Scheme) (ps : List Pulse) (s : State) : State :=
  let s := ((s.latchCarrier).setBusy true).setQ ps
  s.emit (.txstart sch s.actPeriod s.actDuty)

/-- The step `Finish`: `BUSY <- 0`, `emit(TXEND)` (R105, 40_pulse_primitives.md). -/
def State.finish (s : State) : State := (s.setBusy false).emit .txend

/-- `Transmit(scheme, ps)` as the host sees it, the big-step form (R104, 40_pulse_primitives.md). -/
def State.transmit (sch : Scheme) (ps : List Pulse) (s : State) : State :=
  let s := (s.latchCarrier).setBusy true
  let s := s.emit (.txstart sch s.actPeriod s.actDuty)
  (ps.foldl (fun s e => s.perform e) s).finish

/-- The sequencer's step while `BUSY = 1`: `Pulse` where a pulse is left, else `Finish` (R105, 40_pulse_primitives.md). -/
def State.sequence (s : State) : State :=
  match s.q with
  | [] => s.finish
  | e :: rest => (s.setQ rest).perform e

/-! ### Acceptance of a command -/

/-- A command is accepted only while `BUSY = 0`; one presented while `BUSY = 1` is held, "neither dropped nor queued inside the block",
so nothing changes (R53, 20_memory.md; R109, 40_pulse_primitives.md; log 8). -/
def whenReady (s : State) (effect : State → State) : Host.Outcome State Fault Refusal :=
  if s.busy then .next s else .next (effect s)

/-- A short code with `bit_count` `n`: refused for `n = 0` or `n > 32`, else a transmission of the pulse list its scheme gives it
(R142, 42_sony_datagram.md; R160, R162, R164, 43_nec_rc5_rc6.md; log 9). -/
def sendShort (sch : Scheme) (pulses : Nat → List Pulse) (n : Byte) (s : State) : Host.Outcome State Fault Refusal :=
  if n = 0#8 ∨ 32 < n.toNat then .refused .bitCountOutOfRange
  else whenReady s fun s => s.startTransmit sch (pulses n.toNat)

/-! ### Reset -/

/-- The step `Reset` (R230, 70_reset_and_hazards.md): the four carrier registers are drawn anew. The inputs are not the block's to change (log 10). -/
def State.resetBlock (s : State) : State :=
  { s with
    irPeriod := s.freeByte 0
    irDuty := s.freeByte 1
    actPeriod := s.freeByte 2
    actDuty := s.freeByte 3
    status := statusWord false false
    q := []
    now := 0
    trace := s.trace ++ [.reset]
    draws := s.draws + 4 }

/-! ### The inputs (R51, 20_memory.md) -/

/-- `rst` at this step: the next sample, released where none is left (log 2). -/
def State.rst (s : State) : Bool := s.rstLine.headD false

/-- The sample of `rst` for this step has been taken. -/
def State.sampleRst (s : State) : State := { s with rstLine := s.rstLine.tail }

/-- The bytes left at the port. -/
def State.setPort (bytes : List Byte) (s : State) : State := { s with port := bytes }

/-- `cmd_valid`: the host presents a whole command (or a byte that is none, which R82 refuses) (R51, 20_memory.md). -/
def State.cmdValid (s : State) : Bool :=
  match decode s.port with
  | .incomplete => false
  | .command _ _ => true
  | .notACommand => true

/-- `cmd_ready = 1` exactly when `BUSY = 0` and `rst = 0` (R53, 20_memory.md). -/
def State.cmdReady (s : State) : Bool := !s.busy && !s.rst

/-- The host presents exactly these bytes and the block is ready: `rst` released, `BUSY = 0`, and so `Q = []` (R37, 10_state.md; log 12). -/
def State.present (bytes : List Byte) (s : State) : State :=
  { (((s.setBusy false).setQ []).setPort bytes) with rstLine := [] }

end Sys2Proof.Machine
end

