-- ==== Sys2Proof/Machine/Operands.lean ====
section
/-! DEFINITION. Operand assembly and the bits of an operand in wire order (30_encoding.md, section 3; R54, R56, 20_memory.md),
and the arithmetic of SETFREQ (R122, R123, 41_timer_control.md). -/

namespace Sys2Proof.Machine

/-- The low `n` bits of a word, bit `n-1` first, bit 0 last: the wire order of R54 (a byte, `n = 8`) and R56 (a short code), 20_memory.md. -/
def bitsHighFirst {w : Nat} (v : BitVec w) : Nat → List Bool
  | 0 => []
  | n + 1 => v.getLsbD n :: bitsHighFirst v n

/-- The 64 bits of a datagram in wire order: byte 0 first, bit 7 of each byte first (R54, 20_memory.md). -/
def datagramBits (bytes : List Byte) : List Bool := bytes.flatMap fun b => bitsHighFirst b 8

/-- `code = zext_32(w[11:0])`, with `w` from the two `$` arguments in the configured order (R78, 30_encoding.md). -/
def rawCode (order : RawcodeOrder) (a0 a1 : Byte) : Code :=
  let w : BitVec 16 := match order with
    | .BE => a0 ++ a1
    | .LE => a1 ++ a0
  (w.extractLsb' 0 12).setWidth 32

/-- `freq = {fh, fl}`, big-endian (R77, 30_encoding.md). -/
def freqOf (fh fl : Byte) : Nat := 256 * fh.toNat + fl.toNat

/-- `tv = (CLOCK_HZ / freq) - 1`, floor division on unbounded integers (R122, R123 items 1 and 2, 41_timer_control.md); may be -1. -/
def timerValue (clockHz freq : Nat) : Int := (clockHz : Int) / (freq : Int) - 1

/-- `dv = (tv * 100) / dp`, multiplication first (R122, R123 item 3, 41_timer_control.md). -/
def dutyValue (tv : Int) (dp : Nat) : Int := tv * 100 / (dp : Int)

/-- An exact result is stored only if it fits 0 to 255 (R123 item 1, 41_timer_control.md); `none` stands for `any u8`. -/
def fitByte (v : Int) : Option Byte := if 0 ≤ v ∧ v ≤ 255 then some (BitVec.ofInt 8 v) else none

/-- What SETFREQ stores in `IR_PERIOD`; `none` stands for `any u8` (R122, 41_timer_control.md). -/
def freqPeriod (clockHz freq : Nat) : Option Byte :=
  if freq = 0 then none else fitByte (timerValue clockHz freq)

/-- What SETFREQ stores in `IR_DUTY`; `none` stands for `any u8` (R122, 41_timer_control.md). -/
def freqDuty (clockHz freq dp : Nat) : Option Byte :=
  if freq = 0 then none
  else if dp = 0 ∨ timerValue clockHz freq < 0 ∨ 255 < timerValue clockHz freq then none
  else fitByte (dutyValue (timerValue clockHz freq) dp)

end Sys2Proof.Machine
end

