-- ==== Sys2Proof/Machine/Pulses.lean ====
section
/-! DEFINITION. Pulse lists: their measures and envelope (R103, R108, 40_pulse_primitives.md), and the pure function `Pulses_<SCHEME>` of each
scheme (R140, R142, 42_sony_datagram.md; R160, R162, R164, 43_nec_rc5_rc6.md). They read no state. -/

namespace Sys2Proof.Machine

/-- The `d` of a pulse. -/
def Pulse.dur : Pulse → Nat
  | .mark d => d
  | .space d => d

/-- The event a pulse appends to `TRACE` (R100, R101, 40_pulse_primitives.md). -/
def Pulse.event : Pulse → Event
  | .mark d => .mark d
  | .space d => .space d

/-- The value a pulse drives `GATE` to (R100, R101, 40_pulse_primitives.md). -/
def Pulse.isMark : Pulse → Bool
  | .mark _ => true
  | .space _ => false

/-- `Dur(ps)`: the sum of the durations (R103, 40_pulse_primitives.md). -/
def dur (ps : List Pulse) : Nat := (ps.map Pulse.dur).sum

/-- `GATE` after a pulse list is performed from `GATE = g`. -/
def gateAfter (g : Bool) (ps : List Pulse) : Bool := ps.foldl (fun _ e => e.isMark) g

/-- Put a pulse before a merged list, joining it to a first element of its own kind (R108, 40_pulse_primitives.md). -/
def joinPulse : Pulse → List Pulse → List Pulse
  | .mark d, .mark e :: rest => .mark (d + e) :: rest
  | .space d, .space e :: rest => .space (d + e) :: rest
  | p, rest => p :: rest

/-- Every maximal run of neighbours of one kind as one element whose duration is the sum (R108, 40_pulse_primitives.md). -/
def mergeRuns : List Pulse → List Pulse
  | [] => []
  | p :: rest => joinPulse p (mergeRuns rest)

/-- `Envelope(ps)`: zero-length pulses deleted, then runs merged (R108, 40_pulse_primitives.md). -/
def envelope (ps : List Pulse) : List Pulse := mergeRuns (ps.filter fun e => e.dur != 0)

/-- Whether the carrier is on during the `t`-th `TU` of a pulse list (counted from 0), `none` after its end: the on/off waveform the list
denotes (R108, 40_pulse_primitives.md). -/
def levelAt : List Pulse → Nat → Option Bool
  | [], _ => none
  | e :: rest, t => if t < e.dur then some e.isMark else levelAt rest (t - e.dur)

/-! ### Bulk form and short Sony code -/

/-- One bit of the bulk form (R140, 42_sony_datagram.md). -/
def bitDG (c : Cfg) (b : Bool) : List Pulse :=
  [.mark (if b then c.dgOneMark else c.dgZeroMark), .space c.dgBitSpace]

/-- `Pulses_DG` (R140, 42_sony_datagram.md). -/
def pulsesDG (c : Cfg) (bytes : List Byte) : List Pulse :=
  [.mark c.dgHdrMark, .space c.dgHdrSpace] ++ (datagramBits bytes).flatMap (bitDG c)

/-- One bit of the short Sony code (R142, 42_sony_datagram.md). -/
def bitSony (c : Cfg) (b : Bool) : List Pulse :=
  [.mark (if b then c.sonyOneMark else c.sonyZeroMark), .space c.sonyBitSpace]

/-- `Pulses_SONY` (R142, 42_sony_datagram.md). -/
def pulsesSony (c : Cfg) (value : Code) (n : Nat) : List Pulse :=
  [.mark c.sonyHdrMark, .space c.sonyHdrSpace] ++ (bitsHighFirst value n).flatMap (bitSony c) ++ [.space 0]

/-! ### NEC, RC5, RC6 -/

/-- One bit of NEC (R160, 43_nec_rc5_rc6.md). -/
def bitNec (c : Cfg) (b : Bool) : List Pulse :=
  [.mark c.necBitMark, .space (if b then c.necOneSpace else c.necZeroSpace)]

/-- `Pulses_NEC` (R160, 43_nec_rc5_rc6.md). -/
def pulsesNec (c : Cfg) (value : Code) (n : Nat) : List Pulse :=
  [.mark c.necHdrMark, .space c.necHdrSpace] ++ (bitsHighFirst value n).flatMap (bitNec c) ++ [.mark c.necBitMark, .space 0]

/-- One bit of RC5: space then mark for 1, mark then space for 0 (R162, 43_nec_rc5_rc6.md). -/
def bitRc5 (c : Cfg) (b : Bool) : List Pulse :=
  if b then [.space c.rc5T1, .mark c.rc5T1] else [.mark c.rc5T1, .space c.rc5T1]

/-- `Pulses_RC5` (R162, 43_nec_rc5_rc6.md). -/
def pulsesRc5 (c : Cfg) (value : Code) (n : Nat) : List Pulse :=
  [.mark c.rc5T1, .space c.rc5T1, .mark c.rc5T1] ++ (bitsHighFirst value n).flatMap (bitRc5 c) ++ [.space 0]

/-- The half-bit time of RC6 at position `k` from the first transmitted bit: doubled at 3 (R164, 43_nec_rc5_rc6.md). -/
def halfRc6 (c : Cfg) (k : Nat) : Nat := if k = 3 then 2 * c.rc6T1 else c.rc6T1

/-- One bit of RC6 at position `k`: mark then space for 1, space then mark for 0 (R164, 43_nec_rc5_rc6.md). -/
def bitRc6 (c : Cfg) (k : Nat) (b : Bool) : List Pulse :=
  if b then [.mark (halfRc6 c k), .space (halfRc6 c k)] else [.space (halfRc6 c k), .mark (halfRc6 c k)]

/-- The bits of RC6 from position `k` on (R164, 43_nec_rc5_rc6.md). -/
def bitsRc6 (c : Cfg) : Nat → List Bool → List Pulse
  | _, [] => []
  | k, b :: bs => bitRc6 c k b ++ bitsRc6 c (k + 1) bs

/-- `Pulses_RC6` (R164, 43_nec_rc5_rc6.md). -/
def pulsesRc6 (c : Cfg) (value : Code) (n : Nat) : List Pulse :=
  [.mark c.rc6HdrMark, .space c.rc6HdrSpace, .mark c.rc6T1, .space c.rc6T1] ++ bitsRc6 c 0 (bitsHighFirst value n) ++ [.space 0]

/-! ### What a send command transmits -/

/-- The scheme and the pulse list of a send command (R105, 40_pulse_primitives.md); `none` for a configuration command. -/
def sendOf (c : Cfg) : Instr → Option (Scheme × List Pulse)
  | .senddg b0 b1 b2 b3 b4 b5 b6 b7 => some (.DG, pulsesDG c [b0, b1, b2, b3, b4, b5, b6, b7])
  | .setfreq _ _ _ => none
  | .sendraw a0 a1 => some (.SONY, pulsesSony c (rawCode c.rawcodeOrder a0 a1) 12)
  | .carrier _ => none
  | .settiming _ _ => none
  | .sendsony value n => some (.SONY, pulsesSony c value n.toNat)
  | .sendnec value n => some (.NEC, pulsesNec c value n.toNat)
  | .sendrc5 value n => some (.RC5, pulsesRc5 c value n.toNat)
  | .sendrc6 value n => some (.RC6, pulsesRc6 c value n.toNat)

end Sys2Proof.Machine
end

