-- ==== Sys2Proof/Machine/Schemes.lean ====
section
/-! DEFINITION. The scheme variants SENDNEC, SENDRC5 and SENDRC6 (43_nec_rc5_rc6.md; log 13). -/

namespace Sys2Proof.Machine

/-- SENDNEC `value, n` (R160, 43_nec_rc5_rc6.md). -/
def execSendnec (value : Code) (n : Byte) (s : State) : Host.Outcome State Fault Refusal :=
  sendShort .NEC (pulsesNec Config.cfg value) n s

/-- SENDRC5 `value, n` (R162, 43_nec_rc5_rc6.md). -/
def execSendrc5 (value : Code) (n : Byte) (s : State) : Host.Outcome State Fault Refusal :=
  sendShort .RC5 (pulsesRc5 Config.cfg value) n s

/-- SENDRC6 `value, n` (R164, 43_nec_rc5_rc6.md). -/
def execSendrc6 (value : Code) (n : Byte) (s : State) : Host.Outcome State Fault Refusal :=
  sendShort .RC6 (pulsesRc6 Config.cfg value) n s

end Sys2Proof.Machine
end

