-- ==== Sys2Proof/Machine/Sony.lean ====
section
/-! DEFINITION. The Sony-derived send commands SENDDG, SENDSONY and SENDRAW (42_sony_datagram.md). -/

namespace Sys2Proof.Machine

/-- SENDDG `b0, …, b7`: the bytes go out verbatim, no first byte and no checksum is checked (R140, R141, 42_sony_datagram.md). -/
def execSenddg (b0 b1 b2 b3 b4 b5 b6 b7 : Byte) (s : State) : Host.Outcome State Fault Refusal :=
  whenReady s fun s => s.startTransmit .DG (pulsesDG Config.cfg [b0, b1, b2, b3, b4, b5, b6, b7])

/-- SENDSONY `value, n` (R142, 42_sony_datagram.md). -/
def execSendsony (value : Code) (n : Byte) (s : State) : Host.Outcome State Fault Refusal :=
  sendShort .SONY (pulsesSony Config.cfg value) n s

/-- SENDRAW `a0, a1`: 12 bits, scheme SONY (R144, 42_sony_datagram.md). -/
def execSendraw (a0 a1 : Byte) (s : State) : Host.Outcome State Fault Refusal :=
  whenReady s fun s => s.startTransmit .SONY (pulsesSony Config.cfg (rawCode Config.cfg.rawcodeOrder a0 a1) 12)

end Sys2Proof.Machine
end

