-- ==== Sys2Proof/Machine/Timer.lean ====
section
/-! DEFINITION. The configuration commands SETTIMING, SETFREQ and CARRIER (41_timer_control.md). -/

namespace Sys2Proof.Machine

/-- SETTIMING `p, d` (R120, 41_timer_control.md). -/
def execSettiming (p d : Byte) (s : State) : Host.Outcome State Fault Refusal :=
  whenReady s fun s => s.setIr p d

/-- What SETFREQ does with the timer clock at `clockHz` (R122, 41_timer_control.md): a register whose exact result does not fit, or has no value,
takes the free value of these operands, so that repeating the command leaves both registers as they were (R59, 20_memory.md; log 3). -/
def State.setFreq (clockHz : Nat) (fh fl dp : Byte) (s : State) : State :=
  s.setIr ((freqPeriod clockHz (freqOf fh fl)).getD (Config.openPeriod s.draws fh fl dp))
    ((freqDuty clockHz (freqOf fh fl) dp.toNat).getD (Config.openDuty s.draws fh fl dp))

/-- SETFREQ `fh, fl, dp` (R122, 41_timer_control.md). -/
def execSetfreq (fh fl dp : Byte) (s : State) : Host.Outcome State Fault Refusal :=
  whenReady s fun s => s.setFreq Config.cfg.clockHz fh fl dp

/-- Switch the continuous carrier on: latch, open the gate, record it (R125, 41_timer_control.md). -/
def State.carrierOn (s : State) : State :=
  let s := (s.latchCarrier).setGate true
  s.emit (.carrier true s.actPeriod s.actDuty)

/-- Switch the continuous carrier off: close the gate, record it; no latch (R125, 41_timer_control.md). -/
def State.carrierOff (s : State) : State :=
  let s := s.setGate false
  s.emit (.carrier false s.actPeriod s.actDuty)

/-- CARRIER `en`: only whether `en` is zero matters (R125, 41_timer_control.md; R75, 30_encoding.md). -/
def execCarrier (en : Byte) (s : State) : Host.Outcome State Fault Refusal :=
  whenReady s fun s => if en = 0#8 then s.carrierOff else s.carrierOn

end Sys2Proof.Machine
end

