-- ==== Sys2Proof/Machine/Dispatch.lean ====
section
/-! DEFINITION. One arm for each command: its meaning (R72, 30_encoding.md). -/

namespace Sys2Proof.Machine

/-- What issuing a command does (`Issue(cmd)`, R105, 40_pulse_primitives.md). -/
def exec (i : Instr) (s : State) : Host.Outcome State Fault Refusal :=
  match i with
  | .senddg b0 b1 b2 b3 b4 b5 b6 b7 => Sys2Proof.Machine.execSenddg b0 b1 b2 b3 b4 b5 b6 b7 s
  | .setfreq fh fl dp => Sys2Proof.Machine.execSetfreq fh fl dp s
  | .sendraw a0 a1 => Sys2Proof.Machine.execSendraw a0 a1 s
  | .carrier en => Sys2Proof.Machine.execCarrier en s
  | .settiming p d => Sys2Proof.Machine.execSettiming p d s
  | .sendsony value n => Sys2Proof.Machine.execSendsony value n s
  | .sendnec value n => Sys2Proof.Machine.execSendnec value n s
  | .sendrc5 value n => Sys2Proof.Machine.execSendrc5 value n s
  | .sendrc6 value n => Sys2Proof.Machine.execSendrc6 value n s

end Sys2Proof.Machine
end

