-- ==== Sys2Proof/Machine/Sequencer.lean ====
section
/-! DEFINITION. The step relation of R105 (40_pulse_primitives.md) as one function of the state: which of the steps `Reset`, `Pulse`, `Finish` and
`Issue` is taken, and what it does. -/

namespace Sys2Proof.Machine

/-- `Issue` of the command at the port (R105, R109, 40_pulse_primitives.md). Where no whole command is presented the block is idle, and nothing changes (R80,
30_encoding.md; log 1). A first byte that is no opcode is refused (R82, 30_encoding.md). -/
def issue (s : State) : Host.Outcome State Fault Refusal :=
  match decode s.port with
  | .command i rest => exec i (s.setPort rest)
  | .incomplete => .next s
  | .notACommand => .refused .notAnEncoderCommand

/-- One step of the block. `Reset` wins when it is taken (R205, 60_exceptions.md); else the sequencer runs while `BUSY = 1`; else the host issues. -/
def stepBlock (s : State) : Host.Outcome State Fault Refusal :=
  if s.rst then .next (s.sampleRst.resetBlock)
  else if s.busy then .next (s.sampleRst.sequence)
  else issue s.sampleRst

end Sys2Proof.Machine
end

