-- ==== Sys2Proof/Machine/Step.lean ====
section
/-! DEFINITION. One step of the machine, and how a program's next instruction is placed where the step takes it. -/

namespace Sys2Proof.Machine

/-- One step of the machine (R105, 40_pulse_primitives.md). -/
def step (s : State) : Host.Outcome State Fault Refusal := Sys2Proof.Machine.stepBlock s

/-- `s` with one instruction presented at the port, the block ready to accept it (log 12). -/
def State.withFetchWord (s : State) (nbits w : Nat) : State := s.present (bytesOfWord nbits w)

end Sys2Proof.Machine
end

