-- ==== Sys2Proof/Machine/Framing.lean ====
section
/-! DEFINITION. The datagram wire format, its checksum, the two templates, the pseudo-commands, and which host commands reach the
block (44_datagram_framing.md; R87, 30_encoding.md). Pure functions; none of this is state of the block. -/

namespace Sys2Proof.Machine

/-- `Checksum(b[0..6])`: the unsigned sum mod 256 (R181, 44_datagram_framing.md). -/
def checksum (bytes : List Byte) : Byte := bytes.foldl (fun sum b => sum + b) 0#8

/-- `BuildGeneric` (R183, 44_datagram_framing.md). -/
def buildGeneric (g u op a0 a1 a2 : Byte) : List Byte :=
  [0x55#8, g, u, op, a0, a1, a2, checksum [0x55#8, g, u, op, a0, a1, a2]]

/-- `BuildColorspot` (R184, 44_datagram_framing.md): bytes 5 and 6 are the constant 0. -/
def buildColorspot (g pos cmd : Byte) : List Byte :=
  [0x55#8, g, 0xFD#8, pos, cmd, 0x00#8, 0x00#8, checksum [0x55#8, g, 0xFD#8, pos, cmd, 0x00#8, 0x00#8]]

/-- `FWDGEN g, u, op, a0, a1, a2` (R87, 30_encoding.md). -/
def fwdgen (g u op a0 a1 a2 : Byte) : Instr :=
  .senddg 0x55#8 g u op a0 a1 a2 (checksum [0x55#8, g, u, op, a0, a1, a2])

/-- `FWDSPOT g, pos, cmd` (R87, 30_encoding.md). -/
def fwdspot (g pos cmd : Byte) : Instr :=
  .senddg 0x55#8 g 0xFD#8 pos cmd 0x00#8 0x00#8 (checksum [0x55#8, g, 0xFD#8, pos, cmd, 0x00#8, 0x00#8])

/-- `SENDSONY12 code` (R87, 30_encoding.md). -/
def sendsony12 (code : Code) : Instr := .sendsony code 12#8

/-- The argument bytes of a host command; a command uses the first of them its own count names (log 16). -/
structure HostArgs where
  a0 : Byte
  a1 : Byte
  a2 : Byte
  a3 : Byte
  a4 : Byte
  a5 : Byte
  a6 : Byte
  a7 : Byte
  deriving DecidableEq, Repr

/-- What a host command makes of the block (R185, 44_datagram_framing.md). -/
inductive Reach where
  /-- No transmission, no register of the block touched. -/
  | nothing
  /-- It reaches the block as this command. -/
  | command (i : Instr)
  /-- It reaches the block as a SENDDG whose bytes the document does not give (`^`, N11). -/
  | unknownDatagram
  deriving DecidableEq, Repr

/-- The host commands that never reach the block: `@ j i I w P a A Z l` (R185, 44_datagram_framing.md). -/
def hostOnly : List Byte := [0x40#8, 0x6A#8, 0x69#8, 0x49#8, 0x77#8, 0x50#8, 0x61#8, 0x41#8, 0x5A#8, 0x6C#8]

/-- The table of R185 (44_datagram_framing.md): what host command `op` with arguments `a` reaches the block as, while the host's
`freem_addr` is `g` and its `peer_addr` is `u`. `O` (stop) is a default row (C7, 90_conflicts.md). -/
def hostReach (g u op : Byte) (a : HostArgs) : Reach :=
  if op = 0x23#8 then .command (.setfreq a.a0 a.a1 a.a2)
  else if op = 0x25#8 then .command (.carrier a.a0)
  else if op = 0x24#8 then .command (.sendraw a.a0 a.a1)
  else if op = 0x21#8 then .command (.senddg a.a0 a.a1 a.a2 a.a3 a.a4 a.a5 a.a6 a.a7)
  else if op = 0x2A#8 then .command (fwdspot g a.a0 a.a1)
  else if op = 0x5E#8 then .unknownDatagram
  else if op ∈ hostOnly then .nothing
  else .command (fwdgen g u op a.a0 a.a1 a.a2)

end Sys2Proof.Machine
end

