-- ==== Sys2Proof/Machine/Output.lean ====
section
/-! DEFINITION. The output `ir_out` (R35, 10_state.md; R124, 41_timer_control.md; R209, 60_exceptions.md). A model observes `TRACE`; this is the one
function of the state the block drives onto its pin. -/

namespace Sys2Proof.Machine

/-- `CarrierShape` at count `count` of the carrier timer: uninterpreted, but for the one property R124 (41_timer_control.md) gives it, that it
repeats every `period + 1` counts of `clk_timer` (log 7). -/
def carrierShape (clockHz : Nat) (period duty : Byte) (count : Nat) : Bool :=
  Config.carrierCycle clockHz period duty (count % (period.toNat + 1))

/-- `ir_out` (R35, 10_state.md) when the carrier timer has counted `count`; the count is not architectural and its phase at the instant
`GATE` rises is not specified (R209, 60_exceptions.md), so it is an argument. -/
def State.irOut (s : State) (count : Nat) : Bool :=
  if s.gate then carrierShape Config.cfg.clockHz s.actPeriod s.actDuty count else Config.idleLevel

/-- The carrier's repetition rate in hertz, `CLOCK_HZ / (ACT_PERIOD + 1)`, rounded down (R124, 41_timer_control.md). -/
def carrierRate (clockHz : Nat) (period : Byte) : Nat := clockHz / (period.toNat + 1)

end Sys2Proof.Machine
end

