-- ==== Sys2Proof/Safety.lean ====
section
/-! DEFINITION. What claims about the block are stated in: reading a trace, the machine's invariant, and a released reset line. -/

namespace Sys2Proof.Machine

/-- What an observer who has read a trace from its beginning knows. -/
structure Observed where
  /-- The transmission in progress: its scheme and the carrier values of its `TXSTART`. -/
  transmission : Option (Scheme × Byte × Byte)
  /-- The last value `GATE` was driven to. -/
  gate : Bool
  /-- The nominal time since the last `RESET` spent in pulses. -/
  time : Nat
  /-- No event so far stood where R33 (10_state.md) and R107 (40_pulse_primitives.md) do not allow it. -/
  wellFormed : Bool
  deriving DecidableEq, Repr

/-- Nothing read yet (R31, 10_state.md: `TRACE` is empty before the first reset). -/
def Observed.start : Observed := { transmission := none, gate := false, time := 0, wellFormed := true }

/-- Read one event. Pulses and `TXEND` stand only inside a transmission, `TXSTART` and `CARRIER` only outside one, `RESET` anywhere; a `TXEND` finds the
gate closed (R33, 10_state.md; R107, 40_pulse_primitives.md). -/
def Observed.read (o : Observed) : Event → Observed
  | .txstart sch p d =>
    { o with transmission := some (sch, p, d), wellFormed := o.wellFormed && o.transmission.isNone }
  | .mark n => { o with gate := true, time := o.time + n, wellFormed := o.wellFormed && o.transmission.isSome }
  | .space n => { o with gate := false, time := o.time + n, wellFormed := o.wellFormed && o.transmission.isSome }
  | .txend => { o with transmission := none, wellFormed := o.wellFormed && o.transmission.isSome && !o.gate }
  | .carrier on _ _ => { o with gate := on, wellFormed := o.wellFormed && o.transmission.isNone }
  | .reset => { transmission := none, gate := false, time := 0, wellFormed := o.wellFormed }

/-- Read a whole trace, oldest event first. -/
def observe (trace : List Event) : Observed := trace.foldl Observed.read Observed.start

/-- The invariant of the machine. -/
structure State.Inv (s : State) : Prop where
  /-- `STATUS[7:2] = 0` (R37(b), 10_state.md). -/
  statusReserved : s.status &&& 0xFC#8 = 0#8
  /-- `BUSY = 0` implies `Q = []` (R37(a), 10_state.md). -/
  idleQueueEmpty : s.busy = false → s.q = []
  /-- No queue is longer than that of SENDDG (R28, 10_state.md). -/
  queueBounded : s.q.length ≤ 130
  /-- A transmission ends with the gate closed (R107, 40_pulse_primitives.md). -/
  endsInSpace : s.busy = true → gateAfter s.gate s.q = false
  /-- The trace is one that R33 (10_state.md) allows. -/
  traceWellFormed : (observe s.trace).wellFormed = true
  /-- A transmission is open in the trace exactly while `BUSY = 1` (R26, 10_state.md). -/
  busyIsOpen : (observe s.trace).transmission.isSome = s.busy
  /-- The active carrier values are those of the open transmission's `TXSTART` (R115, 40_pulse_primitives.md). -/
  latchedHeld : ∀ sch p d, (observe s.trace).transmission = some (sch, p, d) → s.actPeriod = p ∧ s.actDuty = d
  /-- `GATE` is what the trace last drove it to (R25, 10_state.md; R33). -/
  gateObserved : (observe s.trace).gate = s.gate
  /-- `NOW` is the nominal time spent in pulses since the last reset (R32, 10_state.md). -/
  nowObserved : (observe s.trace).time = s.now

/-- `rst` is released for the next `n` steps. -/
def State.Quiet (n : Nat) (s : State) : Prop := ∀ b ∈ s.rstLine.take n, b = false

/-- `k` steps, stopping at the first that answers no next state. -/
def steps : Nat → State → Host.Outcome State Fault Refusal
  | 0, s => .next s
  | k + 1, s =>
    match step s with
    | .next t => steps k t
    | .fault f => .fault f
    | .refused r => .refused r

end Sys2Proof.Machine
end

