-- ==== Sys2Proof/Certificates/Slice0/Obligations.lean ====
section
/-! DEFINITION. The statements for the provers. Each docstring names the rule or the decision of spec/ it formalises. -/

open Sys2Proof Sys2Proof.Machine

/-! ### Encoding -/

/-- Words written out from R71 and R72 (30_encoding.md) decode to the commands they stand for (vectors V10, V40, V60, V81, V83, V87, V110 to V112 of
95_test_vectors.md). The opcodes 0x80 to 0x84 are the spec's decision D14. -/
def Obligations.SpecWordsDecode : Prop :=
  decode [0x23#8, 0x94#8, 0x70#8, 0x32#8, 0x25#8, 0x01#8] = .command (.setfreq 0x94#8 0x70#8 0x32#8) [0x25#8, 0x01#8] ∧
  decode [0x25#8, 0x01#8] = .command (.carrier 0x01#8) [] ∧
  decode [0x24#8, 0x0A#8, 0x90#8, 0x21#8] = .command (.sendraw 0x0A#8 0x90#8) [0x21#8] ∧
  decode [0x21#8, 0x55#8, 0x01#8, 0x09#8, 0x63#8, 0xFF#8, 0x00#8, 0xFF#8, 0xC0#8] =
    .command (.senddg 0x55#8 0x01#8 0x09#8 0x63#8 0xFF#8 0x00#8 0xFF#8 0xC0#8) [] ∧
  decode [0x80#8, 0x19#8, 0x08#8] = .command (.settiming 0x19#8 0x08#8) [] ∧
  decode [0x81#8, 0x00#8, 0x00#8, 0x0A#8, 0x90#8, 0x0C#8] = .command (.sendsony 0xA90#32 12#8) [] ∧
  decode [0x82#8, 0x20#8, 0xDF#8, 0x10#8, 0xEF#8, 0x20#8] = .command (.sendnec 0x20DF10EF#32 32#8) [] ∧
  decode [0x83#8, 0x00#8, 0x00#8, 0x08#8, 0x0C#8, 0x0C#8] = .command (.sendrc5 0x80C#32 12#8) [] ∧
  decode [0x84#8, 0x00#8, 0x00#8, 0x00#8, 0x09#8, 0x04#8] = .command (.sendrc6 0x9#32 4#8) [] ∧
  decode [0x40#8, 0x01#8, 0x09#8] = .notACommand

/-- Decoding an encoded command gives it back, every operand at every value, and leaves the bytes after it. -/
def Obligations.DecodeGivesBackEncoded : Prop :=
  ∀ (i : Instr) (rest : List Byte), decode (encode i ++ rest) = .command i rest

/-- What decodes to a command is that command's encoding: no bit of a command's bytes is dropped. -/
def Obligations.DecodedBytesAreItsEncoding : Prop :=
  ∀ (bytes : List Byte) (i : Instr) (rest : List Byte), decode bytes = .command i rest → bytes = encode i ++ rest

/-- R70 (30_encoding.md): one opcode byte, then a number of operand bytes that the opcode byte alone fixes. -/
def Obligations.LengthFixedByFirstByte : Prop :=
  ∀ (c0 : Byte), ∃ k : Nat, ∀ (operands : List Byte) (i : Instr) (rest : List Byte),
    decode (c0 :: operands) = .command i rest →
      (encode i).length = 1 + k ∧ k ≤ operands.length ∧ rest = operands.drop k

/-- Every first byte but the nine of R72 is not a command (R82, 30_encoding.md; the spec's decision D15; 0x80 to 0x84 are its decision D14). -/
def Obligations.OtherFirstBytesAreNoCommand : Prop :=
  ∀ (c0 : Byte) (operands : List Byte),
    decode (c0 :: operands) = .notACommand ↔
      c0 ∉ [0x21#8, 0x23#8, 0x24#8, 0x25#8, 0x80#8, 0x81#8, 0x82#8, 0x83#8, 0x84#8]

/-- A byte string shorter than its opcode's format is not a command, and a longer one is (R71, R80, 30_encoding.md; derived there from R70; the rows 0x80 to
0x84 are the spec's decision D14). -/
def Obligations.ShortStringIsNoCommand : Prop :=
  decode [] = .incomplete ∧
  ∀ row ∈ [(0x21#8, 8), (0x23#8, 3), (0x24#8, 2), (0x25#8, 1), (0x80#8, 2), (0x81#8, 5), (0x82#8, 5), (0x83#8, 5), (0x84#8, 5)],
    ∀ operands : List Byte,
      (operands.length < row.2 → decode (row.1 :: operands) = .incomplete) ∧
      (row.2 ≤ operands.length → ∃ i, decode (row.1 :: operands) = .command i (operands.drop row.2))

/-- R77 (30_encoding.md): the frequency is big-endian, zero-extended in arithmetic, and the duty-cycle percent is an unsigned number of 0 to 255 that nothing checks.
The results stored where they fit a byte are those of R122 (41_timer_control.md), read by the spec's decision D13 (R123; log 17). -/
def Obligations.FrequencyIsBigEndian : Prop :=
  ∀ (fh fl dp : Byte) (rest : List Byte),
    decode (0x23#8 :: fh :: fl :: dp :: rest) = .command (.setfreq fh fl dp) rest ∧
    freqOf fh fl = (fh ++ fl : BitVec 16).toNat ∧
    ∀ s : State, s.busy = false →
      exec (.setfreq fh fl dp) s = .next (s.setFreq Config.cfg.clockHz fh fl dp) ∧
      ∀ clockHz : Nat,
        let freq : BitVec 16 := fh ++ fl
        let tv : Int := (clockHz : Int) / (freq.toNat : Int) - 1
        freq ≠ 0#16 → dp ≠ 0#8 → 0 ≤ tv → tv ≤ 255 → tv * 100 / (dp.toNat : Int) ≤ 255 →
          ((s.setFreq clockHz fh fl dp).irPeriod.toNat : Int) = tv ∧
          ((s.setFreq clockHz fh fl dp).irDuty.toNat : Int) = tv * 100 / (dp.toNat : Int)

/-- R75 (30_encoding.md): operand bytes by position; the bytes of a datagram are opaque (they choose nothing but the pulses), and of CARRIER's operand only
whether it is zero matters. The opcodes are R72's (0x80 is the spec's decision D14); that accepting SENDDG only queues its pulses is the spec's decision D7 (R105,
40_pulse_primitives.md; log 11). -/
def Obligations.OperandBytesByPosition : Prop :=
  (∀ (b0 b1 b2 b3 b4 b5 b6 b7 : Byte) (rest : List Byte),
    decode (0x21#8 :: b0 :: b1 :: b2 :: b3 :: b4 :: b5 :: b6 :: b7 :: rest) = .command (.senddg b0 b1 b2 b3 b4 b5 b6 b7) rest) ∧
  (∀ (p d : Byte) (rest : List Byte), decode (0x80#8 :: p :: d :: rest) = .command (.settiming p d) rest) ∧
  (∀ (en : Byte) (rest : List Byte), decode (0x25#8 :: en :: rest) = .command (.carrier en) rest) ∧
  (∀ s : State, s.busy = false → ∃ t : State, ∀ b0 b1 b2 b3 b4 b5 b6 b7 : Byte, ∃ ps : List Pulse,
    exec (.senddg b0 b1 b2 b3 b4 b5 b6 b7) s = .next { t with q := ps }) ∧
  (∀ (s : State) (en en' : Byte), en ≠ 0#8 → en' ≠ 0#8 → exec (.carrier en) s = exec (.carrier en') s)

/-- The 12-bit code of SENDRAW in either byte order, the upper four bits of the pair ignored (R78, 30_encoding.md; the spec's decision D11). -/
def Obligations.RawCodeIsLowTwelveBits : Prop :=
  ∀ a0 a1 : Byte,
    (rawCode .BE a0 a1).toNat = (256 * a0.toNat + a1.toNat) % 4096 ∧
    (rawCode .LE a0 a1).toNat = (256 * a1.toNat + a0.toNat) % 4096

/-! ### Configuration commands -/

/-- R120 (41_timer_control.md): SETTIMING, opcode 0x80, stores both values as given and changes nothing else. The opcode is the spec's decision D14 (R72, 30_encoding.md; log 17). -/
def Obligations.SettimingStoresBoth : Prop :=
  (∀ (p d : Byte) (rest : List Byte), decode (0x80#8 :: p :: d :: rest) = .command (.settiming p d) rest) ∧
  ∀ (p d : Byte) (s : State), s.busy = false →
    exec (.settiming p d) s = .next { s with irPeriod := p, irDuty := d }

/-- The formulas of R122 (41_timer_control.md; the spec's decision D13), for every clock rate (positive by R8, log 5): SETFREQ completes on all operands and changes the two
programmed registers alone; where the exact result fits 0 to 255 the register takes it, and where it does not, or a divisor is zero, the register takes some byte (log 3). -/
def Obligations.SetfreqStoresFormulas : Prop :=
  (∀ (fh fl dp : Byte) (rest : List Byte), decode (0x23#8 :: fh :: fl :: dp :: rest) = .command (.setfreq fh fl dp) rest) ∧
  0 < Config.cfg.clockHz ∧
  (∀ (fh fl dp : Byte) (s : State), s.busy = false →
    exec (.setfreq fh fl dp) s = .next (s.setFreq Config.cfg.clockHz fh fl dp)) ∧
  ∀ (clockHz : Nat) (fh fl dp : Byte) (s : State),
    let freq : Int := 256 * fh.toNat + fl.toNat
    let tv : Int := (clockHz : Int) / freq - 1
    let dv : Int := tv * 100 / (dp.toNat : Int)
    ∃ p d : Byte,
      s.setFreq clockHz fh fl dp = { s with irPeriod := p, irDuty := d } ∧
      (freq ≠ 0 → 0 ≤ tv → tv ≤ 255 → (p.toNat : Int) = tv) ∧
      (freq ≠ 0 → dp ≠ 0#8 → 0 ≤ tv → tv ≤ 255 → dv ≤ 255 → (d.toNat : Int) = dv)

/-- Where SETFREQ's result is open, the register takes the free value of the operands, one for each register (the model's form of `any u8`: log 3; the spec's decision D13).
A zero percentage leaves the period's formula in force. -/
def Obligations.SetfreqOpenResultsAreDrawn : Prop :=
  ∀ (clockHz : Nat) (fh fl dp : Byte) (s : State),
    (freqOf fh fl = 0 ∨ timerValue clockHz (freqOf fh fl) < 0 ∨ 255 < timerValue clockHz (freqOf fh fl) →
      (s.setFreq clockHz fh fl dp).irPeriod = Config.openPeriod s.draws fh fl dp ∧
      (s.setFreq clockHz fh fl dp).irDuty = Config.openDuty s.draws fh fl dp) ∧
    (dp = 0#8 ∨ 255 < dutyValue (timerValue clockHz (freqOf fh fl)) dp.toNat →
      (s.setFreq clockHz fh fl dp).irDuty = Config.openDuty s.draws fh fl dp) ∧
    (freqOf fh fl ≠ 0 → 0 ≤ timerValue clockHz (freqOf fh fl) → timerValue clockHz (freqOf fh fl) ≤ 255 →
      ((s.setFreq clockHz fh fl dp).irPeriod.toNat : Int) = timerValue clockHz (freqOf fh fl))

/-- The arithmetic laws of SETFREQ, items 4 to 6 of R123 (41_timer_control.md; the spec's decision D13). -/
def Obligations.SetfreqArithmeticLaws : Prop :=
  ∀ (clockHz freq : Nat), 0 < freq →
    (timerValue clockHz freq = -1 ↔ clockHz < freq) ∧
    -1 ≤ timerValue clockHz freq ∧
    (255 < timerValue clockHz freq ↔ 256 < clockHz / freq) ∧
    ∀ (tv : Int) (dp : Nat), 0 ≤ tv → 1 ≤ dp →
      (dp ≤ 100 → tv ≤ dutyValue tv dp) ∧
      dutyValue tv 100 = tv ∧
      (255 < dutyValue tv dp ↔ 256 * (dp : Int) ≤ tv * 100)

/-- CARRIER nonzero latches and opens the gate, CARRIER zero closes it without latching; each records its event (R125, 41_timer_control.md, with the spec's decisions
D4, D5, D29). -/
def Obligations.CarrierSwitchesGate : Prop :=
  ∀ s : State, s.busy = false →
    (∀ en : Byte, en ≠ 0#8 → exec (.carrier en) s =
      .next { s with actPeriod := s.irPeriod, actDuty := s.irDuty, status := statusWord true false,
                     trace := s.trace ++ [.carrier true s.irPeriod s.irDuty] }) ∧
    exec (.carrier 0#8) s =
      .next { s with status := statusWord false false, trace := s.trace ++ [.carrier false s.actPeriod s.actDuty] }

/-- R59 (20_memory.md): repeating SETTIMING, SETFREQ or CARRIER with the same operands leaves the registers as they were, SETFREQ's open results too (log 3), and each CARRIER
appends an event. -/
def Obligations.RepeatingLeavesRegisters : Prop :=
  ∀ s t : State, s.busy = false →
    (∀ p d : Byte, exec (.settiming p d) s = .next t → exec (.settiming p d) t = .next t) ∧
    (∀ fh fl dp : Byte, exec (.setfreq fh fl dp) s = .next t → exec (.setfreq fh fl dp) t = .next t) ∧
    (∀ en : Byte, exec (.carrier en) s = .next t →
      ∃ ev, t.trace = s.trace ++ [ev] ∧ exec (.carrier en) t = .next { t with trace := t.trace ++ [ev] })

/-- What the three configuration commands leave unchanged (R120, R122, R125, 41_timer_control.md): the queue, the clock, BUSY, both inputs and the draws, always; GATE, the
active registers and the trace but for CARRIER; the programmed registers for CARRIER. -/
def Obligations.ConfigCommandFrame : Prop :=
  ∀ (i : Instr) (s t : State), i.isSend = false → exec i s = .next t →
    t.q = s.q ∧ t.now = s.now ∧ t.busy = s.busy ∧ t.port = s.port ∧ t.rstLine = s.rstLine ∧ t.draws = s.draws ∧
    ((∀ en, i ≠ .carrier en) → t.status = s.status ∧ t.actPeriod = s.actPeriod ∧ t.actDuty = s.actDuty ∧ t.trace = s.trace) ∧
    (∀ en, i = .carrier en → t.irPeriod = s.irPeriod ∧ t.irDuty = s.irDuty) ∧
    (i = .carrier 0#8 → t.actPeriod = s.actPeriod ∧ t.actDuty = s.actDuty)

/-! ### Send commands -/

/-- R140 and R54 (42_sony_datagram.md, 20_memory.md): SENDDG is accepted with the 130 pulses of its 64 bits, byte 0 first and bit 7 of each byte first; when they are out the block
is ready again with the gate closed. The bytes go out whatever they are. That the pulses are queued and go out one a step is the spec's decision D7 (R105; log 11, log 2). -/
def Obligations.SenddgSendsSixtyFourBits : Prop :=
  ∀ (b0 b1 b2 b3 b4 b5 b6 b7 : Byte) (s : State), s.busy = false →
    let bytes : List Byte := [b0, b1, b2, b3, b4, b5, b6, b7]
    let ones := ∑ k ∈ Finset.range 8, ∑ j ∈ Finset.range 8, ((bytes.getD k 0#8).getLsbD j).toNat
    (∀ rest, decode (0x21#8 :: (bytes ++ rest)) = .command (.senddg b0 b1 b2 b3 b4 b5 b6 b7) rest) ∧
    ∃ ps : List Pulse,
      exec (.senddg b0 b1 b2 b3 b4 b5 b6 b7) s =
        .next { s with actPeriod := s.irPeriod, actDuty := s.irDuty, status := statusWord s.gate true, q := ps,
                       trace := s.trace ++ [.txstart .DG s.irPeriod s.irDuty] } ∧
      ps.length = 130 ∧
      ps[0]? = some (.mark Config.cfg.dgHdrMark) ∧
      ps[1]? = some (.space Config.cfg.dgHdrSpace) ∧
      (∀ k j, k < 8 → j < 8 →
        ps[2 + 2 * (8 * k + (7 - j))]? =
          some (.mark (if (bytes.getD k 0#8).getLsbD j then Config.cfg.dgOneMark else Config.cfg.dgZeroMark)) ∧
        ps[3 + 2 * (8 * k + (7 - j))]? = some (.space Config.cfg.dgBitSpace)) ∧
      dur ps = Config.cfg.dgHdrMark + Config.cfg.dgHdrSpace + 64 * Config.cfg.dgBitSpace + ones * Config.cfg.dgOneMark
        + (64 - ones) * Config.cfg.dgZeroMark ∧
      (s.Quiet 131 → ∃ u, steps 131 { s with actPeriod := s.irPeriod, actDuty := s.irDuty, status := statusWord s.gate true, q := ps,
                                             trace := s.trace ++ [.txstart .DG s.irPeriod s.irDuty] } = .next u ∧
        u.busy = false ∧ u.gate = false ∧ u.actPeriod = s.irPeriod ∧ u.actDuty = s.irDuty ∧
        u.trace = s.trace ++ [.txstart .DG s.irPeriod s.irDuty] ++ ps.map Pulse.event ++ [.txend])

/-- SENDSONY is accepted with the pulses of R142 (42_sony_datagram.md; the spec's decisions D8, D9): header, `n` bits from `value[n-1]` down, the trailing `SPACE(0)`. -/
def Obligations.SendsonyPulses : Prop :=
  ∀ (value : Code) (n : Byte) (s : State), s.busy = false → 1 ≤ n.toNat → n.toNat ≤ 32 →
    let c := Config.cfg
    let ones := ∑ i ∈ Finset.range n.toNat, (value.getLsbD i).toNat
    ∃ ps : List Pulse,
      exec (.sendsony value n) s =
        .next { s with actPeriod := s.irPeriod, actDuty := s.irDuty, status := statusWord s.gate true, q := ps,
                       trace := s.trace ++ [.txstart .SONY s.irPeriod s.irDuty] } ∧
      ps.length = 2 * n.toNat + 3 ∧
      ps[0]? = some (.mark c.sonyHdrMark) ∧ ps[1]? = some (.space c.sonyHdrSpace) ∧
      (∀ i < n.toNat,
        ps[2 + 2 * i]? = some (.mark (if value.getLsbD (n.toNat - 1 - i) then c.sonyOneMark else c.sonyZeroMark)) ∧
        ps[3 + 2 * i]? = some (.space c.sonyBitSpace)) ∧
      ps[2 * n.toNat + 2]? = some (.space 0) ∧
      dur ps = c.sonyHdrMark + c.sonyHdrSpace + n.toNat * c.sonyBitSpace + ones * c.sonyOneMark + (n.toNat - ones) * c.sonyZeroMark

/-- SENDRAW is SENDSONY of its 12-bit code with `n = 12`: 27 pulses, scheme SONY (R144, 42_sony_datagram.md; the spec's decisions D11, D30). -/
def Obligations.SendrawIsSendsonyTwelve : Prop :=
  ∀ (a0 a1 : Byte) (s : State), s.busy = false →
    ∃ t : State,
      exec (.sendraw a0 a1) s = .next t ∧
      exec (.sendsony (rawCode Config.cfg.rawcodeOrder a0 a1) 12#8) s = .next t ∧
      t.q.length = 27 ∧ t.trace = s.trace ++ [.txstart .SONY s.irPeriod s.irDuty]

/-- SENDNEC is accepted with the pulses of R160 (43_nec_rc5_rc6.md; from general knowledge, log 13): the bit is in the space, and a stop mark precedes the trailing `SPACE(0)`. -/
def Obligations.SendnecPulses : Prop :=
  ∀ (value : Code) (n : Byte) (s : State), s.busy = false → 1 ≤ n.toNat → n.toNat ≤ 32 →
    let c := Config.cfg
    let ones := ∑ i ∈ Finset.range n.toNat, (value.getLsbD i).toNat
    ∃ ps : List Pulse,
      exec (.sendnec value n) s =
        .next { s with actPeriod := s.irPeriod, actDuty := s.irDuty, status := statusWord s.gate true, q := ps,
                       trace := s.trace ++ [.txstart .NEC s.irPeriod s.irDuty] } ∧
      ps.length = 2 * n.toNat + 4 ∧
      ps[0]? = some (.mark c.necHdrMark) ∧ ps[1]? = some (.space c.necHdrSpace) ∧
      (∀ i < n.toNat,
        ps[2 + 2 * i]? = some (.mark c.necBitMark) ∧
        ps[3 + 2 * i]? = some (.space (if value.getLsbD (n.toNat - 1 - i) then c.necOneSpace else c.necZeroSpace))) ∧
      ps[2 * n.toNat + 2]? = some (.mark c.necBitMark) ∧ ps[2 * n.toNat + 3]? = some (.space 0) ∧
      dur ps = c.necHdrMark + c.necHdrSpace + (n.toNat + 1) * c.necBitMark + ones * c.necOneSpace + (n.toNat - ones) * c.necZeroSpace

/-- SENDRC5 is accepted with the pulses of R162 (43_nec_rc5_rc6.md; from general knowledge, log 13): mark, space, mark, then space-mark for 1 and mark-space for 0, then
`SPACE(0)`. -/
def Obligations.SendrcFivePulses : Prop :=
  ∀ (value : Code) (n : Byte) (s : State), s.busy = false → 1 ≤ n.toNat → n.toNat ≤ 32 →
    let t1 := Config.cfg.rc5T1
    ∃ ps : List Pulse,
      exec (.sendrc5 value n) s =
        .next { s with actPeriod := s.irPeriod, actDuty := s.irDuty, status := statusWord s.gate true, q := ps,
                       trace := s.trace ++ [.txstart .RC5 s.irPeriod s.irDuty] } ∧
      ps.length = 2 * n.toNat + 4 ∧
      ps[0]? = some (.mark t1) ∧ ps[1]? = some (.space t1) ∧ ps[2]? = some (.mark t1) ∧
      (∀ i < n.toNat,
        (value.getLsbD (n.toNat - 1 - i) = true → ps[3 + 2 * i]? = some (.space t1) ∧ ps[4 + 2 * i]? = some (.mark t1)) ∧
        (value.getLsbD (n.toNat - 1 - i) = false → ps[3 + 2 * i]? = some (.mark t1) ∧ ps[4 + 2 * i]? = some (.space t1))) ∧
      ps[2 * n.toNat + 3]? = some (.space 0) ∧
      dur ps = (2 * n.toNat + 3) * t1

/-- SENDRC6 is accepted with the pulses of R164 (43_nec_rc5_rc6.md; from general knowledge, log 13): leader, start bit, then mark-space for 1 and space-mark for 0, the halves of
position 3 doubled, then `SPACE(0)`. -/
def Obligations.SendrcSixPulses : Prop :=
  ∀ (value : Code) (n : Byte) (s : State), s.busy = false → 1 ≤ n.toNat → n.toNat ≤ 32 →
    let c := Config.cfg
    ∃ ps : List Pulse,
      exec (.sendrc6 value n) s =
        .next { s with actPeriod := s.irPeriod, actDuty := s.irDuty, status := statusWord s.gate true, q := ps,
                       trace := s.trace ++ [.txstart .RC6 s.irPeriod s.irDuty] } ∧
      ps.length = 2 * n.toNat + 5 ∧
      ps[0]? = some (.mark c.rc6HdrMark) ∧ ps[1]? = some (.space c.rc6HdrSpace) ∧
      ps[2]? = some (.mark c.rc6T1) ∧ ps[3]? = some (.space c.rc6T1) ∧
      (∀ k < n.toNat,
        let t := if k = 3 then 2 * c.rc6T1 else c.rc6T1
        (value.getLsbD (n.toNat - 1 - k) = true → ps[4 + 2 * k]? = some (.mark t) ∧ ps[5 + 2 * k]? = some (.space t)) ∧
        (value.getLsbD (n.toNat - 1 - k) = false → ps[4 + 2 * k]? = some (.space t) ∧ ps[5 + 2 * k]? = some (.mark t))) ∧
      ps[2 * n.toNat + 4]? = some (.space 0) ∧
      dur ps = c.rc6HdrMark + c.rc6HdrSpace + 2 * c.rc6T1 + 2 * c.rc6T1 * (n.toNat + if 4 ≤ n.toNat then 1 else 0)

/-- The four short codes are refused, in every state, exactly for `n = 0` and `n > 32` (R81, 30_encoding.md; the spec's decision D10). -/
def Obligations.ReservedBitCountRefused : Prop :=
  ∀ (value : Code) (n : Byte) (s : State),
    ∀ i ∈ [Instr.sendsony value n, .sendnec value n, .sendrc5 value n, .sendrc6 value n],
      exec i s = .refused .bitCountOutOfRange ↔ n.toNat = 0 ∨ 32 < n.toNat

/-- Bits of `value` from `n` up do not affect a short code (R56, 20_memory.md; the spec's decision D9). -/
def Obligations.HighBitsIgnored : Prop :=
  ∀ (v w : Code) (n : Byte) (s : State), (∀ k < n.toNat, v.getLsbD k = w.getLsbD k) →
    exec (.sendsony v n) s = exec (.sendsony w n) s ∧ exec (.sendnec v n) s = exec (.sendnec w n) s ∧
    exec (.sendrc5 v n) s = exec (.sendrc5 w n) s ∧ exec (.sendrc6 v n) s = exec (.sendrc6 w n) s

/-- What accepting a send command leaves unchanged: the programmed registers, GATE, NOW, both inputs and the draws; the trace grows by its `TXSTART` alone (R104, R105,
40_pulse_primitives.md). -/
def Obligations.SendCommandFrame : Prop :=
  ∀ (i : Instr) (s t : State), i.isSend = true → s.busy = false → exec i s = .next t →
    t.irPeriod = s.irPeriod ∧ t.irDuty = s.irDuty ∧ t.gate = s.gate ∧ t.now = s.now ∧ t.port = s.port ∧ t.rstLine = s.rstLine ∧
    t.draws = s.draws ∧ ∃ sch, t.trace = s.trace ++ [.txstart sch s.irPeriod s.irDuty]

/-- A command issued while BUSY = 1 is held: nothing changes, and it is not refused (R53, 20_memory.md, decision D6; R109, 40_pulse_primitives.md; log 8). -/
def Obligations.CommandHeldWhileBusy : Prop :=
  ∀ (i : Instr) (s : State), s.busy = true → i.wellFormed = true → exec i s = .next s

/-! ### Pulse lists -/

/-- The envelope is in normal form, takes as long as the list, is unchanged by a trailing `SPACE(0)`, and two lists have one envelope exactly when they are on and off at the
same times (R108, 40_pulse_primitives.md; the spec's decision D27). -/
def Obligations.EnvelopeIsTheWaveform : Prop :=
  (∀ ps : List Pulse,
    (∀ e ∈ envelope ps, 0 < e.dur) ∧
    (envelope ps).IsChain (fun a b => a.isMark ≠ b.isMark) ∧
    dur (envelope ps) = dur ps ∧
    envelope (envelope ps) = envelope ps ∧
    envelope (ps ++ [.space 0]) = envelope ps) ∧
  ∀ ps qs : List Pulse, envelope ps = envelope qs ↔ ∀ t, levelAt ps t = levelAt qs t

/-- Every send command's list ends in a space, so the gate is closed after it (R107, 40_pulse_primitives.md, derived there), and none is longer than 130 (R28, 10_state.md). -/
def Obligations.PulseListsEndInSpace : Prop :=
  ∀ (c : Cfg) (i : Instr) (sch : Scheme) (ps : List Pulse), i.wellFormed = true → sendOf c i = some (sch, ps) →
    (∃ d, ps.getLast? = some (.space d)) ∧ ps.length ≤ 130 ∧ ∀ g, gateAfter g ps = false

/-! ### The step relation -/

/-- A step runs the decoded command: with `rst` released and BUSY = 0, the step is that command's effect on the state in which its bytes have left the port and the sample of
`rst` has been taken (R105, 40_pulse_primitives.md, decision D7; log 1, log 2). -/
def Obligations.StepRunsDecodedCommand : Prop :=
  ∀ (s : State) (i : Instr) (rest : List Byte), s.rst = false → s.busy = false → decode s.port = .command i rest →
    step s = exec i { s with port := rest, rstLine := s.rstLine.tail }

/-- The instruction `withFetchWord` places is the one the next step runs, from every state (log 12). -/
def Obligations.PlacedInstructionRuns : Prop :=
  ∀ (s : State) (nbits w : Nat) (i : Instr), decodeTableWord nbits w = some i →
    step (s.withFetchWord nbits w) = exec i (s.present [])

/-- R100 (40_pulse_primitives.md): a mark opens the gate, is recorded and takes its time; only a transmission performs one. That a step performs the head of the queue is the spec's
decision D7 (R105; log 11), and that it takes one sample of `rst` is log 2. -/
def Obligations.MarkOpensGate : Prop :=
  (∀ (d : Nat) (s : State),
    s.mark d = { s with status := statusWord true s.busy, trace := s.trace ++ [.mark d], now := s.now + d }) ∧
  (∀ (s : State) (d : Nat) (rest : List Pulse), s.rst = false → s.busy = true → s.q = .mark d :: rest →
    step s = .next { s with status := statusWord true true, q := rest, trace := s.trace ++ [.mark d], now := s.now + d,
                            rstLine := s.rstLine.tail }) ∧
  ∀ (s t : State) (d : Nat), step s = .next t → t.trace = s.trace ++ [.mark d] → s.busy = true ∧ s.q.head? = some (.mark d)

/-- R101 (40_pulse_primitives.md): a space closes the gate, is recorded and takes its time; only a transmission performs one. That a step performs the head of the queue is the spec's
decision D7 (R105; log 11), and that it takes one sample of `rst` is log 2. -/
def Obligations.SpaceClosesGate : Prop :=
  (∀ (d : Nat) (s : State),
    s.space d = { s with status := statusWord false s.busy, trace := s.trace ++ [.space d], now := s.now + d }) ∧
  (∀ (s : State) (d : Nat) (rest : List Pulse), s.rst = false → s.busy = true → s.q = .space d :: rest →
    step s = .next { s with status := statusWord false true, q := rest, trace := s.trace ++ [.space d], now := s.now + d,
                            rstLine := s.rstLine.tail }) ∧
  ∀ (s t : State) (d : Nat), step s = .next t → t.trace = s.trace ++ [.space d] → s.busy = true ∧ s.q.head? = some (.space d)

/-- The step `Finish`: with no pulse left, BUSY falls and `TXEND` is recorded (R105, 40_pulse_primitives.md; decision D7). -/
def Obligations.FinishEndsTransmission : Prop :=
  ∀ s : State, s.rst = false → s.busy = true → s.q = [] →
    step s = .next { s with status := statusWord s.gate false, trace := s.trace ++ [.txend], rstLine := s.rstLine.tail }

/-- The step `Reset`, from every state (R230, 70_reset_and_hazards.md; decision D16): the carrier registers are drawn anew (log 3), the inputs stay (log 10). -/
def Obligations.ResetStepFromEveryState : Prop :=
  ∀ s : State, s.rst = true →
    step s = .next { s with irPeriod := Config.anyByte s.draws, irDuty := Config.anyByte (s.draws + 1),
                            actPeriod := Config.anyByte (s.draws + 2), actDuty := Config.anyByte (s.draws + 3),
                            status := 0#8, q := [], now := 0, trace := s.trace ++ [.reset], draws := s.draws + 4,
                            rstLine := s.rstLine.tail }

/-- What reset leaves (R36, 10_state.md; decision D16): gate closed, ready, nothing queued, the trace `[RESET]`, the clock 0. Nothing is said of the carrier registers. -/
def Obligations.ResetStateValues : Prop :=
  State.reset.gate = false ∧ State.reset.busy = false ∧ State.reset.status &&& 0xFC#8 = 0#8 ∧ State.reset.q = [] ∧
  State.reset.trace = [.reset] ∧ State.reset.now = 0

/-- With nothing whole presented the block idles: only the sample of `rst` is taken (R80, 30_encoding.md; R105; log 1, log 2). -/
def Obligations.IdleStepChangesNothing : Prop :=
  ∀ s : State, s.rst = false → s.busy = false → decode s.port = .incomplete →
    step s = .next { s with rstLine := s.rstLine.tail }

/-- A step is refused exactly when the block is ready and what is presented is no command, or is a command with a reserved operand (R81, R82, 30_encoding.md; R201, 60_exceptions.md;
decisions D10, D15). -/
def Obligations.StepRefusesExactly : Prop :=
  ∀ (s : State) (r : Refusal), step s = .refused r ↔
    s.rst = false ∧ s.busy = false ∧
      ((decode s.port = .notACommand ∧ r = .notAnEncoderCommand) ∨
        ∃ i rest, decode s.port = .command i rest ∧ i.wellFormed = false ∧ r = .bitCountOutOfRange)

/-- The block raises no exception: no step faults, and there is no fault to name (R200, 60_exceptions.md; log 18). -/
def Obligations.NoStepFaults : Prop :=
  IsEmpty Fault ∧ ∀ (s : State) (f : Fault), step s ≠ .fault f

/-! ### Invariants and whole-machine rules -/

/-- Every step keeps the invariant: R28, R32, R33, R37 (10_state.md), R107, R115 (40_pulse_primitives.md). -/
def Obligations.StepKeepsInvariant : Prop :=
  ∀ s t : State, s.Inv → step s = .next t → t.Inv

/-- The state after reset meets the invariant. -/
def Obligations.ResetMeetsInvariant : Prop := State.reset.Inv

/-- R104 (40_pulse_primitives.md): a send command's transmission, pulse by pulse and then its end, while no other command is accepted; whatever GATE was before, it is closed after.
While BUSY = 1 the command is not accepted yet, and nothing changes (log 8). One pulse a step is the spec's decision D7 (R105; log 11); the samples of `rst` are log 2. -/
def Obligations.SendCommandTransmits : Prop :=
  ∀ (i : Instr) (sch : Scheme) (ps : List Pulse) (s : State),
    i.wellFormed = true → sendOf Config.cfg i = some (sch, ps) →
    (s.busy = true → exec i s = .next s) ∧
    (s.busy = false → s.Quiet (ps.length + 1) →
    ∃ t : State, exec i s = .next t ∧
      (∀ k ≤ ps.length, ∃ u, steps k t = .next u ∧
        u.busy = true ∧ u.port = s.port ∧ u.irPeriod = s.irPeriod ∧ u.irDuty = s.irDuty ∧
        u.actPeriod = s.irPeriod ∧ u.actDuty = s.irDuty ∧ u.q = ps.drop k ∧
        u.trace = s.trace ++ [.txstart sch s.irPeriod s.irDuty] ++ (ps.take k).map Pulse.event) ∧
      steps (ps.length + 1) t =
        .next { s with actPeriod := s.irPeriod, actDuty := s.irDuty, status := statusWord false false, q := [],
                       trace := s.trace ++ [.txstart sch s.irPeriod s.irDuty] ++ ps.map Pulse.event ++ [.txend],
                       now := s.now + dur ps, rstLine := s.rstLine.drop (ps.length + 1) })

/-- Big-step and small-step agree for every pulse list: the pulses and the end, one a step, have the net effect of `Transmit` (R106, 40_pulse_primitives.md, derived there; log 11). -/
def Obligations.BigStepIsSmallSteps : Prop :=
  ∀ (sch : Scheme) (ps : List Pulse) (s : State), s.busy = false → s.q = [] → s.Quiet (ps.length + 1) →
    steps (ps.length + 1) (s.startTransmit sch ps) =
      .next { s.transmit sch ps with rstLine := s.rstLine.drop (ps.length + 1) }

/-- A reset cuts a transmission short: the pulses not begun are never emitted, no `TXEND` is recorded, the gate closes and the block is ready (R231, 70_reset_and_hazards.md;
decision D17). The port and the later samples of `rst` stay (log 10, log 2); a reset lands between two pulses (log 11). -/
def Obligations.ResetCutsTransmission : Prop :=
  ∀ (sch : Scheme) (ps : List Pulse) (k : Nat) (s : State) (more : List Bool), s.busy = false → k ≤ ps.length →
    s.rstLine = List.replicate k false ++ true :: more →
    ∃ u, steps (k + 1) (s.startTransmit sch ps) = .next u ∧
      u.busy = false ∧ u.gate = false ∧ u.q = [] ∧ u.now = 0 ∧ u.port = s.port ∧ u.rstLine = more ∧
      u.trace = s.trace ++ [.txstart sch s.irPeriod s.irDuty] ++ (ps.take k).map Pulse.event ++ [.reset]

/-- Every transmission ends: from any state of the invariant with BUSY = 1, after one step for each pulse left and one more the block is ready, at most 131 steps (R110,
40_pulse_primitives.md, derived there; one pulse a step: log 11). -/
def Obligations.TransmissionAlwaysEnds : Prop :=
  ∀ s : State, s.Inv → s.busy = true → s.Quiet 131 →
    s.q.length + 1 ≤ 131 ∧ ∃ t, steps (s.q.length + 1) s = .next t ∧ t.busy = false ∧ t.gate = false ∧ t.trace.getLast? = some .txend

/-- The trace only grows, by at most one event a step (R31, 10_state.md; decision D3). -/
def Obligations.TraceOnlyGrows : Prop :=
  ∀ s t : State, step s = .next t → t.trace = s.trace ∨ ∃ ev, t.trace = s.trace ++ [ev]

/-- The active registers change only by a reset, or take the programmed values when a send command or a nonzero CARRIER is accepted (R23, 10_state.md; R115; decision D4). -/
def Obligations.LatchOnlyAtItsTwoPlaces : Prop :=
  ∀ s t : State, step s = .next t →
    (t.actPeriod = s.actPeriod ∧ t.actDuty = s.actDuty) ∨ s.rst = true ∨
    (s.busy = false ∧ t.actPeriod = s.irPeriod ∧ t.actDuty = s.irDuty ∧
      ∃ i rest, decode s.port = .command i rest ∧ (i.isSend = true ∨ ∃ en, en ≠ 0#8 ∧ i = .carrier en))

/-- The programmed registers change only by a reset, a SETTIMING or a SETFREQ, never by a send command (R21, R22, 10_state.md). -/
def Obligations.ProgrammedRegistersWriters : Prop :=
  ∀ s t : State, step s = .next t →
    (t.irPeriod = s.irPeriod ∧ t.irDuty = s.irDuty) ∨ s.rst = true ∨
    (s.busy = false ∧ ∃ i rest, decode s.port = .command i rest ∧
      ((∃ p d, i = .settiming p d) ∨ ∃ fh fl dp, i = .setfreq fh fl dp))

/-- The gate opens only by a mark or a nonzero CARRIER, and closes only by a space, a zero CARRIER or a reset (R25, 10_state.md; R126, 41_timer_control.md; decision D5). -/
def Obligations.GateWriters : Prop :=
  ∀ s t : State, step s = .next t →
    (s.gate = false → t.gate = true →
      s.rst = false ∧ ((s.busy = true ∧ ∃ d rest, s.q = .mark d :: rest) ∨
        (s.busy = false ∧ ∃ en rest, en ≠ 0#8 ∧ decode s.port = .command (.carrier en) rest))) ∧
    (s.gate = true → t.gate = false →
      s.rst = true ∨ (s.busy = true ∧ ∃ d rest, s.q = .space d :: rest) ∨
        (s.busy = false ∧ ∃ rest, decode s.port = .command (.carrier 0#8) rest))

/-- BUSY rises only by accepting a send command with legal operands, and falls only when the queue is empty or by a reset (R26, 10_state.md; R105; decision D6). -/
def Obligations.BusyWriters : Prop :=
  ∀ s t : State, step s = .next t →
    (s.busy = false → t.busy = true →
      s.rst = false ∧ ∃ i rest, decode s.port = .command i rest ∧ i.isSend = true ∧ i.wellFormed = true) ∧
    (s.busy = true → t.busy = false → s.rst = true ∨ (s.q = [] ∧ t.trace = s.trace ++ [.txend]))

/-- NOW is 0 after a reset, advances by a pulse's duration, and by nothing else (R32, 10_state.md; decision D22). -/
def Obligations.ClockCountsPulsesOnly : Prop :=
  ∀ s t : State, step s = .next t →
    (s.rst = true → t.now = 0) ∧
    (s.rst = false → s.busy = true → t.now = s.now + (s.q.head?.map Pulse.dur).getD 0) ∧
    (s.rst = false → s.busy = false → t.now = s.now)

/-- While BUSY = 1 nothing the host presents is taken, refused or dropped, and it changes nothing: no command stops a transmission (R53, R59, 20_memory.md; decision D6). -/
def Obligations.PortIgnoredWhileBusy : Prop :=
  ∀ (s : State) (bytes : List Byte), s.busy = true →
    ∃ t : State, step s = .next t ∧ t.port = s.port ∧ step { s with port := bytes } = .next { t with port := bytes }

/-- A write to the programmed registers is seen by nothing but the next latch: in every step that accepts neither a send command nor a nonzero CARRIER, other values of them lead to
the same state but for them (R62, 20_memory.md, derived there; R244, 70_reset_and_hazards.md). -/
def Obligations.CarrierValuesWaitForLatch : Prop :=
  ∀ (s t : State) (p d : Byte), step s = .next t →
    (s.rst = false → s.busy = false → ∀ i rest, decode s.port = .command i rest → i.isSend = false ∧ ∀ en, en ≠ 0#8 → i ≠ .carrier en) →
    ∃ p' d', step { s with irPeriod := p, irDuty := d } = .next { t with irPeriod := p', irDuty := d' }

/-! ### Registers and output -/

/-- The register file: numbers 0 to 4 and no others, and STATUS reads `{000000, BUSY, GATE}` in every state (R20, R24, 10_state.md; R60, 20_memory.md; decision D20; the read view: log 14). -/
def Obligations.RegisterFileView : Prop :=
  Reg.ofNumber 0 = some .IR_PERIOD ∧ Reg.ofNumber 1 = some .IR_DUTY ∧ Reg.ofNumber 2 = some .ACT_PERIOD ∧
  Reg.ofNumber 3 = some .ACT_DUTY ∧ Reg.ofNumber 4 = some .STATUS ∧ (∀ n, 5 ≤ n → Reg.ofNumber n = none) ∧
  ∀ s : State,
    s.x .IR_PERIOD = s.irPeriod ∧ s.x .IR_DUTY = s.irDuty ∧ s.x .ACT_PERIOD = s.actPeriod ∧ s.x .ACT_DUTY = s.actDuty ∧
    (s.x .STATUS).getLsbD 0 = s.gate ∧ (s.x .STATUS).getLsbD 1 = s.busy ∧ ∀ j, 2 ≤ j → (s.x .STATUS).getLsbD j = false

/-- The output is idle while the gate is closed and repeats every `ACT_PERIOD + 1` counts of the carrier timer while it is open (R35, 10_state.md; R124, 41_timer_control.md;
decision D3; log 7). -/
def Obligations.OutputFollowsGate : Prop :=
  ∀ (s : State) (count : Nat),
    (s.gate = false → s.irOut count = Config.idleLevel) ∧
    (s.gate = true → s.irOut count = carrierShape Config.cfg.clockHz s.actPeriod s.actDuty count) ∧
    s.irOut (count + (s.actPeriod.toNat + 1)) = s.irOut count

/-! ### Datagram framing -/

/-- R181 (44_datagram_framing.md): the checksum is the unsigned sum of bytes 0 to 6 mod 256, the largest sum being 1785. -/
def Obligations.ChecksumIsSumModulo : Prop :=
  ∀ b0 b1 b2 b3 b4 b5 b6 : Byte,
    (checksum [b0, b1, b2, b3, b4, b5, b6]).toNat =
      (b0.toNat + b1.toNat + b2.toNat + b3.toNat + b4.toNat + b5.toNat + b6.toNat) % 256 ∧
    b0.toNat + b1.toNat + b2.toNat + b3.toNat + b4.toNat + b5.toNat + b6.toNat ≤ 1785

/-- R183 (44_datagram_framing.md): the generic template and its pseudo-command. -/
def Obligations.GenericTemplate : Prop :=
  (∀ g u op a0 a1 a2 : Byte, ∃ ck : Byte,
    ck.toNat = (0x55 + g.toNat + u.toNat + op.toNat + a0.toNat + a1.toNat + a2.toNat) % 256 ∧
    buildGeneric g u op a0 a1 a2 = [0x55#8, g, u, op, a0, a1, a2, ck] ∧
    fwdgen g u op a0 a1 a2 = .senddg 0x55#8 g u op a0 a1 a2 ck ∧
    encode (fwdgen g u op a0 a1 a2) = 0x21#8 :: buildGeneric g u op a0 a1 a2) ∧
  buildGeneric 0x01#8 0x09#8 0x63#8 0xFF#8 0x00#8 0xFF#8 = [0x55#8, 0x01#8, 0x09#8, 0x63#8, 0xFF#8, 0x00#8, 0xFF#8, 0xC0#8]

/-- R184 (44_datagram_framing.md): the colorspot template and its pseudo-command. -/
def Obligations.ColorspotTemplate : Prop :=
  (∀ g pos cmd : Byte, ∃ ck : Byte,
    ck.toNat = (0x55 + g.toNat + 0xFD + pos.toNat + cmd.toNat) % 256 ∧
    buildColorspot g pos cmd = [0x55#8, g, 0xFD#8, pos, cmd, 0x00#8, 0x00#8, ck] ∧
    fwdspot g pos cmd = .senddg 0x55#8 g 0xFD#8 pos cmd 0x00#8 0x00#8 ck ∧
    encode (fwdspot g pos cmd) = 0x21#8 :: buildColorspot g pos cmd) ∧
  buildColorspot 0x55#8 0x03#8 0x63#8 = [0x55#8, 0x55#8, 0xFD#8, 0x03#8, 0x63#8, 0x00#8, 0x00#8, 0x0D#8]

/-- Every datagram a host command but `!` makes of its template starts with 0x55 and carries its checksum (R186, 44_datagram_framing.md, derived there; the host's table is R185). -/
def Obligations.HostDatagramsCarryChecksum : Prop :=
  ∀ (g u op : Byte) (a : HostArgs) (b0 b1 b2 b3 b4 b5 b6 b7 : Byte), op ≠ 0x21#8 →
    hostReach g u op a = .command (.senddg b0 b1 b2 b3 b4 b5 b6 b7) →
    b0 = 0x55#8 ∧ b7 = checksum [b0, b1, b2, b3, b4, b5, b6]
end

