-- ==== Sys2Proof/Laws/Config.lean ====
section
/-! SUPPORT. The machine's configuration meets the constraints of R8 and R9 (00_scope.md). -/

namespace Sys2Proof.Config

theorem clockHz_pos : 0 < cfg.clockHz := Nat.succ_pos _

theorem cfg_valid : cfg.Valid := by
  refine ⟨clockHz_pos, ?_, ?_, ?_⟩ <;> exact Nat.lt_of_lt_of_le (Nat.lt_succ_self _) (Nat.le_add_right _ _)

end Sys2Proof.Config
end

