-- ==== Sys2Proof/Laws/Decode.lean ====
section
/-! SUPPORT. The small lemmas of the decoder and the encoder. -/

namespace Sys2Proof

/-- The map finds exactly the row whose byte it is given. -/
theorem opcodeOf_eq_some_iff (c0 : Byte) (o : Opcode) : opcodeOf c0 = some o ↔ o.byte = c0 := by
  constructor
  · intro h
    simpa using List.find?_some h
  · rintro rfl
    cases o <;> rfl

@[simp] theorem opcodeOf_byte (o : Opcode) : opcodeOf o.byte = some o := (opcodeOf_eq_some_iff _ _).mpr rfl

theorem decode_of_opcode (o : Opcode) (operands : List Byte) : decode (o.byte :: operands) = assemble o operands := by
  simp [decode]

/-- The four bytes of a value, put together again. -/
theorem valueOf_bytes (v : Code) : valueOf (byteOfValue v 3) (byteOfValue v 2) (byteOfValue v 1) (byteOfValue v 0) = v := by
  unfold valueOf byteOfValue
  ext i hi
  simp
  grind

/-- The bytes of a value put together from four bytes. -/
theorem byteOfValue_valueOf (v3 v2 v1 v0 : Byte) :
    byteOfValue (valueOf v3 v2 v1 v0) 3 = v3 ∧ byteOfValue (valueOf v3 v2 v1 v0) 2 = v2 ∧
      byteOfValue (valueOf v3 v2 v1 v0) 1 = v1 ∧ byteOfValue (valueOf v3 v2 v1 v0) 0 = v0 := by
  refine ⟨?_, ?_, ?_, ?_⟩ <;>
  · unfold valueOf byteOfValue
    ext i hi
    simp
    grind

end Sys2Proof
end

