-- ==== Sys2Proof/Laws/State.lean ====
section
/-! SUPPORT. One lemma for each field of State under each single update, and for the two flags, so that no proof unfolds a record update. -/

namespace Sys2Proof.Machine

theorem statusWord_gate (g b : Bool) : (statusWord g b).getLsbD 0 = g := by cases g <;> cases b <;> rfl
theorem statusWord_busy (g b : Bool) : (statusWord g b).getLsbD 1 = b := by cases g <;> cases b <;> rfl
@[simp] theorem statusWord_getElem_zero (g b : Bool) : (statusWord g b)[0] = g := statusWord_gate g b
@[simp] theorem statusWord_getElem_one (g b : Bool) : (statusWord g b)[1] = b := statusWord_busy g b
@[simp] theorem statusWord_reserved (g b : Bool) : statusWord g b &&& 0xFC#8 = 0#8 := by cases g <;> cases b <;> rfl

/-- A status with nothing in the hardwired bits is the word of its two flags. -/
theorem statusWord_of_reserved (s : State) (h : s.status &&& 0xFC#8 = 0#8) : s.status = statusWord s.gate s.busy := by
  have key : ∀ v : Byte, v &&& 0xFC#8 = 0#8 → v = statusWord (v.getLsbD 0) (v.getLsbD 1) := by decide
  exact key s.status h

@[simp] theorem setGate_irPeriod (s : State) (g : Bool) : (State.setGate g s).irPeriod = s.irPeriod := rfl
@[simp] theorem setGate_irDuty (s : State) (g : Bool) : (State.setGate g s).irDuty = s.irDuty := rfl
@[simp] theorem setGate_actPeriod (s : State) (g : Bool) : (State.setGate g s).actPeriod = s.actPeriod := rfl
@[simp] theorem setGate_actDuty (s : State) (g : Bool) : (State.setGate g s).actDuty = s.actDuty := rfl
@[simp] theorem setGate_status (s : State) (g : Bool) : (State.setGate g s).status = statusWord g s.busy := rfl
@[simp] theorem setGate_q (s : State) (g : Bool) : (State.setGate g s).q = s.q := rfl
@[simp] theorem setGate_trace (s : State) (g : Bool) : (State.setGate g s).trace = s.trace := rfl
@[simp] theorem setGate_now (s : State) (g : Bool) : (State.setGate g s).now = s.now := rfl
@[simp] theorem setGate_port (s : State) (g : Bool) : (State.setGate g s).port = s.port := rfl
@[simp] theorem setGate_rstLine (s : State) (g : Bool) : (State.setGate g s).rstLine = s.rstLine := rfl
@[simp] theorem setGate_draws (s : State) (g : Bool) : (State.setGate g s).draws = s.draws := rfl
@[simp] theorem setGate_gate (s : State) (g : Bool) : (State.setGate g s).gate = g := statusWord_gate g s.busy
@[simp] theorem setGate_busy (s : State) (g : Bool) : (State.setGate g s).busy = s.busy := statusWord_busy g s.busy

@[simp] theorem setBusy_irPeriod (s : State) (b : Bool) : (State.setBusy b s).irPeriod = s.irPeriod := rfl
@[simp] theorem setBusy_irDuty (s : State) (b : Bool) : (State.setBusy b s).irDuty = s.irDuty := rfl
@[simp] theorem setBusy_actPeriod (s : State) (b : Bool) : (State.setBusy b s).actPeriod = s.actPeriod := rfl
@[simp] theorem setBusy_actDuty (s : State) (b : Bool) : (State.setBusy b s).actDuty = s.actDuty := rfl
@[simp] theorem setBusy_status (s : State) (b : Bool) : (State.setBusy b s).status = statusWord s.gate b := rfl
@[simp] theorem setBusy_q (s : State) (b : Bool) : (State.setBusy b s).q = s.q := rfl
@[simp] theorem setBusy_trace (s : State) (b : Bool) : (State.setBusy b s).trace = s.trace := rfl
@[simp] theorem setBusy_now (s : State) (b : Bool) : (State.setBusy b s).now = s.now := rfl
@[simp] theorem setBusy_port (s : State) (b : Bool) : (State.setBusy b s).port = s.port := rfl
@[simp] theorem setBusy_rstLine (s : State) (b : Bool) : (State.setBusy b s).rstLine = s.rstLine := rfl
@[simp] theorem setBusy_draws (s : State) (b : Bool) : (State.setBusy b s).draws = s.draws := rfl
@[simp] theorem setBusy_gate (s : State) (b : Bool) : (State.setBusy b s).gate = s.gate := statusWord_gate s.gate b
@[simp] theorem setBusy_busy (s : State) (b : Bool) : (State.setBusy b s).busy = b := statusWord_busy s.gate b

@[simp] theorem emit_irPeriod (s : State) (ev : Event) : (State.emit ev s).irPeriod = s.irPeriod := rfl
@[simp] theorem emit_irDuty (s : State) (ev : Event) : (State.emit ev s).irDuty = s.irDuty := rfl
@[simp] theorem emit_actPeriod (s : State) (ev : Event) : (State.emit ev s).actPeriod = s.actPeriod := rfl
@[simp] theorem emit_actDuty (s : State) (ev : Event) : (State.emit ev s).actDuty = s.actDuty := rfl
@[simp] theorem emit_status (s : State) (ev : Event) : (State.emit ev s).status = s.status := rfl
@[simp] theorem emit_q (s : State) (ev : Event) : (State.emit ev s).q = s.q := rfl
@[simp] theorem emit_trace (s : State) (ev : Event) : (State.emit ev s).trace = s.trace ++ [ev] := rfl
@[simp] theorem emit_now (s : State) (ev : Event) : (State.emit ev s).now = s.now := rfl
@[simp] theorem emit_port (s : State) (ev : Event) : (State.emit ev s).port = s.port := rfl
@[simp] theorem emit_rstLine (s : State) (ev : Event) : (State.emit ev s).rstLine = s.rstLine := rfl
@[simp] theorem emit_draws (s : State) (ev : Event) : (State.emit ev s).draws = s.draws := rfl
@[simp] theorem emit_gate (s : State) (ev : Event) : (State.emit ev s).gate = s.gate := rfl
@[simp] theorem emit_busy (s : State) (ev : Event) : (State.emit ev s).busy = s.busy := rfl

@[simp] theorem setIr_irPeriod (s : State) (p d : Byte) : (State.setIr p d s).irPeriod = p := rfl
@[simp] theorem setIr_irDuty (s : State) (p d : Byte) : (State.setIr p d s).irDuty = d := rfl
@[simp] theorem setIr_actPeriod (s : State) (p d : Byte) : (State.setIr p d s).actPeriod = s.actPeriod := rfl
@[simp] theorem setIr_actDuty (s : State) (p d : Byte) : (State.setIr p d s).actDuty = s.actDuty := rfl
@[simp] theorem setIr_status (s : State) (p d : Byte) : (State.setIr p d s).status = s.status := rfl
@[simp] theorem setIr_q (s : State) (p d : Byte) : (State.setIr p d s).q = s.q := rfl
@[simp] theorem setIr_trace (s : State) (p d : Byte) : (State.setIr p d s).trace = s.trace := rfl
@[simp] theorem setIr_now (s : State) (p d : Byte) : (State.setIr p d s).now = s.now := rfl
@[simp] theorem setIr_port (s : State) (p d : Byte) : (State.setIr p d s).port = s.port := rfl
@[simp] theorem setIr_rstLine (s : State) (p d : Byte) : (State.setIr p d s).rstLine = s.rstLine := rfl
@[simp] theorem setIr_draws (s : State) (p d : Byte) : (State.setIr p d s).draws = s.draws := rfl
@[simp] theorem setIr_gate (s : State) (p d : Byte) : (State.setIr p d s).gate = s.gate := rfl
@[simp] theorem setIr_busy (s : State) (p d : Byte) : (State.setIr p d s).busy = s.busy := rfl

@[simp] theorem latchCarrier_irPeriod (s : State) : (State.latchCarrier s).irPeriod = s.irPeriod := rfl
@[simp] theorem latchCarrier_irDuty (s : State) : (State.latchCarrier s).irDuty = s.irDuty := rfl
@[simp] theorem latchCarrier_actPeriod (s : State) : (State.latchCarrier s).actPeriod = s.irPeriod := rfl
@[simp] theorem latchCarrier_actDuty (s : State) : (State.latchCarrier s).actDuty = s.irDuty := rfl
@[simp] theorem latchCarrier_status (s : State) : (State.latchCarrier s).status = s.status := rfl
@[simp] theorem latchCarrier_q (s : State) : (State.latchCarrier s).q = s.q := rfl
@[simp] theorem latchCarrier_trace (s : State) : (State.latchCarrier s).trace = s.trace := rfl
@[simp] theorem latchCarrier_now (s : State) : (State.latchCarrier s).now = s.now := rfl
@[simp] theorem latchCarrier_port (s : State) : (State.latchCarrier s).port = s.port := rfl
@[simp] theorem latchCarrier_rstLine (s : State) : (State.latchCarrier s).rstLine = s.rstLine := rfl
@[simp] theorem latchCarrier_draws (s : State) : (State.latchCarrier s).draws = s.draws := rfl
@[simp] theorem latchCarrier_gate (s : State) : (State.latchCarrier s).gate = s.gate := rfl
@[simp] theorem latchCarrier_busy (s : State) : (State.latchCarrier s).busy = s.busy := rfl

@[simp] theorem setQ_irPeriod (s : State) (ps : List Pulse) : (State.setQ ps s).irPeriod = s.irPeriod := rfl
@[simp] theorem setQ_irDuty (s : State) (ps : List Pulse) : (State.setQ ps s).irDuty = s.irDuty := rfl
@[simp] theorem setQ_actPeriod (s : State) (ps : List Pulse) : (State.setQ ps s).actPeriod = s.actPeriod := rfl
@[simp] theorem setQ_actDuty (s : State) (ps : List Pulse) : (State.setQ ps s).actDuty = s.actDuty := rfl
@[simp] theorem setQ_status (s : State) (ps : List Pulse) : (State.setQ ps s).status = s.status := rfl
@[simp] theorem setQ_q (s : State) (ps : List Pulse) : (State.setQ ps s).q = ps := rfl
@[simp] theorem setQ_trace (s : State) (ps : List Pulse) : (State.setQ ps s).trace = s.trace := rfl
@[simp] theorem setQ_now (s : State) (ps : List Pulse) : (State.setQ ps s).now = s.now := rfl
@[simp] theorem setQ_port (s : State) (ps : List Pulse) : (State.setQ ps s).port = s.port := rfl
@[simp] theorem setQ_rstLine (s : State) (ps : List Pulse) : (State.setQ ps s).rstLine = s.rstLine := rfl
@[simp] theorem setQ_draws (s : State) (ps : List Pulse) : (State.setQ ps s).draws = s.draws := rfl
@[simp] theorem setQ_gate (s : State) (ps : List Pulse) : (State.setQ ps s).gate = s.gate := rfl
@[simp] theorem setQ_busy (s : State) (ps : List Pulse) : (State.setQ ps s).busy = s.busy := rfl

@[simp] theorem advance_irPeriod (s : State) (d : Nat) : (State.advance d s).irPeriod = s.irPeriod := rfl
@[simp] theorem advance_irDuty (s : State) (d : Nat) : (State.advance d s).irDuty = s.irDuty := rfl
@[simp] theorem advance_actPeriod (s : State) (d : Nat) : (State.advance d s).actPeriod = s.actPeriod := rfl
@[simp] theorem advance_actDuty (s : State) (d : Nat) : (State.advance d s).actDuty = s.actDuty := rfl
@[simp] theorem advance_status (s : State) (d : Nat) : (State.advance d s).status = s.status := rfl
@[simp] theorem advance_q (s : State) (d : Nat) : (State.advance d s).q = s.q := rfl
@[simp] theorem advance_trace (s : State) (d : Nat) : (State.advance d s).trace = s.trace := rfl
@[simp] theorem advance_now (s : State) (d : Nat) : (State.advance d s).now = s.now + d := rfl
@[simp] theorem advance_port (s : State) (d : Nat) : (State.advance d s).port = s.port := rfl
@[simp] theorem advance_rstLine (s : State) (d : Nat) : (State.advance d s).rstLine = s.rstLine := rfl
@[simp] theorem advance_draws (s : State) (d : Nat) : (State.advance d s).draws = s.draws := rfl
@[simp] theorem advance_gate (s : State) (d : Nat) : (State.advance d s).gate = s.gate := rfl
@[simp] theorem advance_busy (s : State) (d : Nat) : (State.advance d s).busy = s.busy := rfl

@[simp] theorem sampleRst_irPeriod (s : State) : (State.sampleRst s).irPeriod = s.irPeriod := rfl
@[simp] theorem sampleRst_irDuty (s : State) : (State.sampleRst s).irDuty = s.irDuty := rfl
@[simp] theorem sampleRst_actPeriod (s : State) : (State.sampleRst s).actPeriod = s.actPeriod := rfl
@[simp] theorem sampleRst_actDuty (s : State) : (State.sampleRst s).actDuty = s.actDuty := rfl
@[simp] theorem sampleRst_status (s : State) : (State.sampleRst s).status = s.status := rfl
@[simp] theorem sampleRst_q (s : State) : (State.sampleRst s).q = s.q := rfl
@[simp] theorem sampleRst_trace (s : State) : (State.sampleRst s).trace = s.trace := rfl
@[simp] theorem sampleRst_now (s : State) : (State.sampleRst s).now = s.now := rfl
@[simp] theorem sampleRst_port (s : State) : (State.sampleRst s).port = s.port := rfl
@[simp] theorem sampleRst_rstLine (s : State) : (State.sampleRst s).rstLine = s.rstLine.tail := rfl
@[simp] theorem sampleRst_draws (s : State) : (State.sampleRst s).draws = s.draws := rfl
@[simp] theorem sampleRst_gate (s : State) : (State.sampleRst s).gate = s.gate := rfl
@[simp] theorem sampleRst_busy (s : State) : (State.sampleRst s).busy = s.busy := rfl

@[simp] theorem setPort_irPeriod (s : State) (bytes : List Byte) : (State.setPort bytes s).irPeriod = s.irPeriod := rfl
@[simp] theorem setPort_irDuty (s : State) (bytes : List Byte) : (State.setPort bytes s).irDuty = s.irDuty := rfl
@[simp] theorem setPort_actPeriod (s : State) (bytes : List Byte) : (State.setPort bytes s).actPeriod = s.actPeriod := rfl
@[simp] theorem setPort_actDuty (s : State) (bytes : List Byte) : (State.setPort bytes s).actDuty = s.actDuty := rfl
@[simp] theorem setPort_status (s : State) (bytes : List Byte) : (State.setPort bytes s).status = s.status := rfl
@[simp] theorem setPort_q (s : State) (bytes : List Byte) : (State.setPort bytes s).q = s.q := rfl
@[simp] theorem setPort_trace (s : State) (bytes : List Byte) : (State.setPort bytes s).trace = s.trace := rfl
@[simp] theorem setPort_now (s : State) (bytes : List Byte) : (State.setPort bytes s).now = s.now := rfl
@[simp] theorem setPort_port (s : State) (bytes : List Byte) : (State.setPort bytes s).port = bytes := rfl
@[simp] theorem setPort_rstLine (s : State) (bytes : List Byte) : (State.setPort bytes s).rstLine = s.rstLine := rfl
@[simp] theorem setPort_draws (s : State) (bytes : List Byte) : (State.setPort bytes s).draws = s.draws := rfl
@[simp] theorem setPort_gate (s : State) (bytes : List Byte) : (State.setPort bytes s).gate = s.gate := rfl
@[simp] theorem setPort_busy (s : State) (bytes : List Byte) : (State.setPort bytes s).busy = s.busy := rfl

end Sys2Proof.Machine
end

