-- ==== Sys2Proof/Laws/Ops.lean ====
section
/-! SUPPORT. For each shared operation one lemma that says everything it does, and the small lemmas of the pulse-list measures. -/

namespace Sys2Proof.Machine

/-! ### The operations, each as one record -/

theorem mark_eq (d : Nat) (s : State) :
    s.mark d = { s with status := statusWord true s.busy, trace := s.trace ++ [.mark d], now := s.now + d } := rfl

theorem space_eq (d : Nat) (s : State) :
    s.space d = { s with status := statusWord false s.busy, trace := s.trace ++ [.space d], now := s.now + d } := rfl

/-- Both primitives at once: a pulse drives the gate, is recorded and takes its time (R100, R101). -/
theorem perform_eq (e : Pulse) (s : State) :
    s.perform e = { s with status := statusWord e.isMark s.busy, trace := s.trace ++ [e.event], now := s.now + e.dur } := by
  cases e <;> rfl

theorem startTransmit_eq (sch : Scheme) (ps : List Pulse) (s : State) :
    s.startTransmit sch ps =
      { s with actPeriod := s.irPeriod, actDuty := s.irDuty, status := statusWord s.gate true, q := ps,
               trace := s.trace ++ [.txstart sch s.irPeriod s.irDuty] } := rfl

theorem finish_eq (s : State) :
    s.finish = { s with status := statusWord s.gate false, trace := s.trace ++ [.txend] } := rfl

theorem carrierOn_eq (s : State) :
    s.carrierOn =
      { s with actPeriod := s.irPeriod, actDuty := s.irDuty, status := statusWord true s.busy,
               trace := s.trace ++ [.carrier true s.irPeriod s.irDuty] } := rfl

theorem carrierOff_eq (s : State) :
    s.carrierOff =
      { s with status := statusWord false s.busy, trace := s.trace ++ [.carrier false s.actPeriod s.actDuty] } := rfl

theorem setFreq_eq (clockHz : Nat) (fh fl dp : Byte) (s : State) :
    s.setFreq clockHz fh fl dp =
      { s with irPeriod := (freqPeriod clockHz (freqOf fh fl)).getD (Config.openPeriod s.draws fh fl dp),
               irDuty := (freqDuty clockHz (freqOf fh fl) dp.toNat).getD (Config.openDuty s.draws fh fl dp) } := rfl

/-- SETFREQ reads neither programmed register, so repeating it changes nothing (R59, 20_memory.md). -/
theorem setFreq_setFreq (clockHz : Nat) (fh fl dp : Byte) (s : State) :
    (s.setFreq clockHz fh fl dp).setFreq clockHz fh fl dp = s.setFreq clockHz fh fl dp := rfl

theorem sequence_nil {s : State} (h : s.q = []) : s.sequence = s.finish := by simp [State.sequence, h]

theorem sequence_cons {s : State} {e : Pulse} {rest : List Pulse} (h : s.q = e :: rest) :
    s.sequence = (s.setQ rest).perform e := by simp [State.sequence, h]

/-! ### Acceptance -/

theorem whenReady_of_idle {s : State} (h : s.busy = false) (f : State → State) : whenReady s f = .next (f s) := by
  simp [whenReady, h]

theorem whenReady_of_busy {s : State} (h : s.busy = true) (f : State → State) : whenReady s f = .next s := by
  simp [whenReady, h]

theorem bitCountLegal_iff (n : Byte) : bitCountLegal n = true ↔ ¬ (n = 0#8 ∨ 32 < n.toNat) := by
  have h : n = 0#8 ↔ n.toNat = 0 := by simp [← BitVec.toNat_inj]
  simp only [bitCountLegal, decide_eq_true_eq, h]
  omega

theorem sendShort_of_legal {n : Byte} (h : bitCountLegal n = true) (sch : Scheme) (pulses : Nat → List Pulse) (s : State) :
    sendShort sch pulses n s = whenReady s fun s => s.startTransmit sch (pulses n.toNat) := by
  simp only [sendShort, if_neg ((bitCountLegal_iff n).mp h)]

theorem sendShort_of_reserved {n : Byte} (h : bitCountLegal n = false) (sch : Scheme) (pulses : Nat → List Pulse) (s : State) :
    sendShort sch pulses n s = .refused .bitCountOutOfRange := by
  have : n = 0#8 ∨ 32 < n.toNat := by
    by_contra hn
    exact absurd ((bitCountLegal_iff n).mpr hn) (by simp [h])
  simp only [sendShort, if_pos this]

/-! ### Pulse lists -/

@[simp] theorem bitsHighFirst_length {w : Nat} (v : BitVec w) (n : Nat) : (bitsHighFirst v n).length = n := by
  induction n with
  | zero => rfl
  | succ n ih => simp [bitsHighFirst, ih]

@[simp] theorem dur_nil : dur [] = 0 := rfl
@[simp] theorem dur_cons (e : Pulse) (ps : List Pulse) : dur (e :: ps) = e.dur + dur ps := by simp [dur]
@[simp] theorem dur_append (ps qs : List Pulse) : dur (ps ++ qs) = dur ps + dur qs := by simp [dur]

@[simp] theorem gateAfter_nil (g : Bool) : gateAfter g [] = g := rfl
@[simp] theorem gateAfter_cons (g : Bool) (e : Pulse) (ps : List Pulse) : gateAfter g (e :: ps) = gateAfter e.isMark ps := rfl
@[simp] theorem gateAfter_append (g : Bool) (ps qs : List Pulse) : gateAfter g (ps ++ qs) = gateAfter (gateAfter g ps) qs := by
  simp [gateAfter]

end Sys2Proof.Machine
end

