-- ==== Sys2Proof/Laws/PerInstr.lean ====
section
/-! SUPPORT. Statements made for each command as syntax. Family `Encoded`: a command's bytes are its row's opcode byte and its row's number
of operand bytes (R70, R72, 30_encoding.md). -/

namespace Sys2Proof

/-- The row of the opcode map a command belongs to (R72, 30_encoding.md). -/
def Instr.opcode : Instr → Opcode
  | .senddg _ _ _ _ _ _ _ _ => .senddg
  | .setfreq _ _ _ => .setfreq
  | .sendraw _ _ => .sendraw
  | .carrier _ => .carrier
  | .settiming _ _ => .settiming
  | .sendsony _ _ => .sendsony
  | .sendnec _ _ => .sendnec
  | .sendrc5 _ _ => .sendrc5
  | .sendrc6 _ _ => .sendrc6

namespace Laws.Encoded

/-- The encoding is the row's opcode byte followed by as many bytes as the row's format has. -/
def Statement (i : Instr) : Prop :=
  ∃ operands, encode i = i.opcode.byte :: operands ∧ operands.length = i.opcode.operandBytes

theorem senddg (b0 b1 b2 b3 b4 b5 b6 b7 : Byte) : Statement (.senddg b0 b1 b2 b3 b4 b5 b6 b7) := ⟨_, rfl, rfl⟩
theorem setfreq (fh fl dp : Byte) : Statement (.setfreq fh fl dp) := ⟨_, rfl, rfl⟩
theorem sendraw (a0 a1 : Byte) : Statement (.sendraw a0 a1) := ⟨_, rfl, rfl⟩
theorem carrier (en : Byte) : Statement (.carrier en) := ⟨_, rfl, rfl⟩
theorem settiming (p d : Byte) : Statement (.settiming p d) := ⟨_, rfl, rfl⟩
theorem sendsony (value : Code) (n : Byte) : Statement (.sendsony value n) := ⟨_, rfl, rfl⟩
theorem sendnec (value : Code) (n : Byte) : Statement (.sendnec value n) := ⟨_, rfl, rfl⟩
theorem sendrc5 (value : Code) (n : Byte) : Statement (.sendrc5 value n) := ⟨_, rfl, rfl⟩
theorem sendrc6 (value : Code) (n : Byte) : Statement (.sendrc6 value n) := ⟨_, rfl, rfl⟩

end Laws.Encoded

end Sys2Proof
end

