-- ==== Sys2Proof/Laws/Step.lean ====
section
/-! SUPPORT. Once and for all, what a command and a step can do: the inversion lemmas that later proofs cite instead of unfolding `exec` and `step`. -/

namespace Sys2Proof.Machine

/-- What an accepted command does to the state: a transmission begins, or one of the configuration commands acts. -/
inductive Accepted (s : State) : Instr → State → Prop where
  | send {i : Instr} {sch : Scheme} {ps : List Pulse} (h : sendOf Config.cfg i = some (sch, ps)) :
      Accepted s i (s.startTransmit sch ps)
  | settiming (p d : Byte) : Accepted s (.settiming p d) (s.setIr p d)
  | setfreq (fh fl dp : Byte) : Accepted s (.setfreq fh fl dp) (s.setFreq Config.cfg.clockHz fh fl dp)
  | carrierOff : Accepted s (.carrier 0#8) s.carrierOff
  | carrierOn (en : Byte) (h : en ≠ 0#8) : Accepted s (.carrier en) s.carrierOn

/-- A command with no reserved operand, issued while the block is ready, has its effect. -/
theorem exec_of_idle {i : Instr} {s : State} (hw : i.wellFormed = true) (hb : s.busy = false) :
    ∃ t, exec i s = .next t ∧ Accepted s i t := by
  cases i with
  | senddg b0 b1 b2 b3 b4 b5 b6 b7 => exact ⟨_, whenReady_of_idle hb _, .send rfl⟩
  | setfreq fh fl dp => exact ⟨_, whenReady_of_idle hb _, .setfreq fh fl dp⟩
  | sendraw a0 a1 => exact ⟨_, whenReady_of_idle hb _, .send rfl⟩
  | carrier en =>
    refine ⟨_, whenReady_of_idle hb fun s => if en = 0#8 then s.carrierOff else s.carrierOn, ?_⟩
    by_cases h : en = 0#8
    · subst h; exact .carrierOff
    · rw [if_neg h]; exact .carrierOn en h
  | settiming p d => exact ⟨_, whenReady_of_idle hb _, .settiming p d⟩
  | sendsony value n => exact ⟨_, (sendShort_of_legal hw _ _ s).trans (whenReady_of_idle hb _), .send rfl⟩
  | sendnec value n => exact ⟨_, (sendShort_of_legal hw _ _ s).trans (whenReady_of_idle hb _), .send rfl⟩
  | sendrc5 value n => exact ⟨_, (sendShort_of_legal hw _ _ s).trans (whenReady_of_idle hb _), .send rfl⟩
  | sendrc6 value n => exact ⟨_, (sendShort_of_legal hw _ _ s).trans (whenReady_of_idle hb _), .send rfl⟩

/-- A command with a reserved operand is refused. -/
theorem exec_of_reserved {i : Instr} (hw : i.wellFormed = false) (s : State) : exec i s = .refused .bitCountOutOfRange := by
  cases i with
  | senddg b0 b1 b2 b3 b4 b5 b6 b7 => cases hw
  | setfreq fh fl dp => cases hw
  | sendraw a0 a1 => cases hw
  | carrier en => cases hw
  | settiming p d => cases hw
  | sendsony value n => exact sendShort_of_reserved hw _ _ s
  | sendnec value n => exact sendShort_of_reserved hw _ _ s
  | sendrc5 value n => exact sendShort_of_reserved hw _ _ s
  | sendrc6 value n => exact sendShort_of_reserved hw _ _ s

theorem step_of_rst {s : State} (h : s.rst = true) : step s = .next s.sampleRst.resetBlock := by
  simp [step, stepBlock, h]

theorem step_of_busy {s : State} (h : s.rst = false) (hb : s.busy = true) : step s = .next s.sampleRst.sequence := by
  simp [step, stepBlock, h, hb]

theorem step_of_idle {s : State} (h : s.rst = false) (hb : s.busy = false) : step s = issue s.sampleRst := by
  simp [step, stepBlock, h, hb]

/-- The kinds of step of R105 (40_pulse_primitives.md), and the idle step. -/
inductive StepKind (s : State) : State → Prop where
  | reset (h : s.rst = true) : StepKind s s.sampleRst.resetBlock
  | pulse (h : s.rst = false) (hb : s.busy = true) {e : Pulse} {rest : List Pulse} (hq : s.q = e :: rest) :
      StepKind s ((s.sampleRst.setQ rest).perform e)
  | finish (h : s.rst = false) (hb : s.busy = true) (hq : s.q = []) : StepKind s s.sampleRst.finish
  | idle (h : s.rst = false) (hb : s.busy = false) (hd : decode s.port = .incomplete) : StepKind s s.sampleRst
  | issue (h : s.rst = false) (hb : s.busy = false) {i : Instr} {rest : List Byte} (hd : decode s.port = .command i rest)
      (hw : i.wellFormed = true) {t : State} (ha : Accepted (s.sampleRst.setPort rest) i t) : StepKind s t

/-- Everything a step can do when it answers a next state. -/
theorem step_cases {s t : State} (h : step s = .next t) : StepKind s t := by
  cases hr : s.rst with
  | true => rw [step_of_rst hr] at h; cases h; exact .reset hr
  | false =>
    cases hb : s.busy with
    | true =>
      rw [step_of_busy hr hb] at h
      cases h
      cases hq : s.q with
      | nil => rw [sequence_nil (s := s.sampleRst) hq]; exact .finish hr hb hq
      | cons e rest => rw [sequence_cons (s := s.sampleRst) hq]; exact .pulse hr hb hq
    | false =>
      rw [step_of_idle hr hb, issue] at h
      simp only [sampleRst_port] at h
      cases hd : decode s.port with
      | incomplete => simp only [hd] at h; cases h; exact .idle hr hb hd
      | notACommand => simp only [hd] at h; cases h
      | command i rest =>
        simp only [hd] at h
        cases hw : i.wellFormed with
        | false => rw [exec_of_reserved hw] at h; cases h
        | true =>
          obtain ⟨t', ht, ha⟩ := exec_of_idle (s := s.sampleRst.setPort rest) hw hb
          rw [ht] at h
          cases h
          exact .issue hr hb hd hw ha

@[simp] theorem observe_append (tr : List Event) (ev : Event) : observe (tr ++ [ev]) = (observe tr).read ev := by
  simp [observe]

/-- A run of `j + k` steps is a run of `j` and then one of `k`. -/
theorem steps_add {j k : Nat} {s t : State} (h : steps j s = .next t) : steps (j + k) s = steps k t := by
  induction j generalizing s with
  | zero => cases h; simp
  | succ j ih =>
    rw [Nat.succ_add]
    simp only [steps] at h ⊢
    cases hs : step s with
    | next u => simp only [hs] at h; exact ih h
    | fault f => cases f
    | refused r => simp only [hs] at h; cases h

end Sys2Proof.Machine
end

