-- ==== Sys2Proof/Tests/Slice0.lean ====
section
/-! SUPPORT. The model's own tests. Expected results come from spec/: the vectors V<n> of 95_test_vectors.md, the worked examples of the command rules, and words
written out from 30_encoding.md. The second half shows, for each statement with hypotheses, a concrete input that meets them. -/

namespace Sys2Proof.Tests

open Sys2Proof Sys2Proof.Machine

/-- `REFSET` (item G5 of 93_implementation_defined.md), with the clock of the vectors. -/
def refset : Cfg where
  clockHz := 1000000
  dgHdrMark := 2400
  dgHdrSpace := 600
  dgOneMark := 1200
  dgZeroMark := 600
  dgBitSpace := 600
  sonyHdrMark := 2400
  sonyHdrSpace := 600
  sonyOneMark := 1200
  sonyZeroMark := 600
  sonyBitSpace := 600
  necHdrMark := 9000
  necHdrSpace := 4500
  necBitMark := 560
  necOneSpace := 1600
  necZeroSpace := 560
  rc5T1 := 889
  rc6HdrMark := 2666
  rc6HdrSpace := 889
  rc6T1 := 444
  rawcodeOrder := .BE

theorem test_refset_is_a_configuration : refset.Valid := by decide

/-- Ready, gate closed: `IR = (25, 8)`, `ACT = (30, 9)`. -/
def idle : State where
  irPeriod := 25#8
  irDuty := 8#8
  actPeriod := 30#8
  actDuty := 9#8
  status := 0x00#8
  q := []
  trace := [.reset]
  now := 0
  port := []
  rstLine := []
  draws := 4

/-- Ready, continuous carrier on. -/
def carrying : State := { idle with status := 0x01#8, trace := [.reset, .carrier true 30#8 9#8] }

/-- In a transmission, with the given pulses left. -/
def sending (ps : List Pulse) : State := { idle with status := 0x02#8, q := ps, trace := [.reset, .txstart .SONY 30#8 9#8] }

/-- In a transmission, inside a mark, with the given pulses left. -/
def marking (ps : List Pulse) : State :=
  { idle with status := 0x03#8, q := ps, now := 5, trace := [.reset, .txstart .SONY 30#8 9#8, .mark 5] }

/-- Look at the next state, where there is one. -/
def look {α : Type} (o : Host.Outcome State Fault Refusal) (f : State → α) : Option α :=
  match o with
  | .next t => some (f t)
  | .fault _ => none
  | .refused _ => none

/-- Look at the refusal, where there is one. -/
def refusal (o : Host.Outcome State Fault Refusal) : Option Refusal :=
  match o with
  | .next _ => none
  | .fault _ => none
  | .refused r => some r

/-! ### Well-formedness: each check refuses an ill-formed command (R81) -/

theorem test_wf_refuses_sendsony_zero : (Instr.sendsony 5#32 0#8).wellFormed = false := by decide
theorem test_wf_refuses_sendsony_33 : (Instr.sendsony 5#32 33#8).wellFormed = false := by decide
theorem test_wf_refuses_sendnec : (Instr.sendnec 1#32 0#8).wellFormed = false ∧ (Instr.sendnec 1#32 33#8).wellFormed = false := by decide
theorem test_wf_refuses_sendrc5 : (Instr.sendrc5 1#32 0#8).wellFormed = false ∧ (Instr.sendrc5 1#32 255#8).wellFormed = false := by decide
theorem test_wf_refuses_sendrc6 : (Instr.sendrc6 1#32 0#8).wellFormed = false ∧ (Instr.sendrc6 1#32 33#8).wellFormed = false := by decide
theorem test_wf_accepts_bounds : (Instr.sendrc6 1#32 1#8).wellFormed = true ∧ (Instr.sendsony 1#32 32#8).wellFormed = true := by decide

/-! ### Decoding: every command's word, written out bit by bit from 30_encoding.md -/

theorem test_decode_senddg :
    decode [0b00100001#8, 0b01010101#8, 0b00000001#8, 0b00001001#8, 0b01100011#8, 0b11111111#8, 0b00000000#8, 0b11111111#8, 0b11000000#8] =
      .command (.senddg 0x55#8 0x01#8 0x09#8 0x63#8 0xFF#8 0x00#8 0xFF#8 0xC0#8) [] := by decide
theorem test_decode_setfreq :
    decode [0b00100011#8, 0b10010100#8, 0b01110000#8, 0b00110010#8] = .command (.setfreq 0x94#8 0x70#8 50#8) [] := by decide
theorem test_decode_sendraw : decode [0b00100100#8, 0b00001010#8, 0b10010000#8] = .command (.sendraw 0x0A#8 0x90#8) [] := by decide
theorem test_decode_carrier : decode [0b00100101#8, 0b00000001#8] = .command (.carrier 1#8) [] := by decide
theorem test_decode_settiming : decode [0b10000000#8, 0b00011001#8, 0b00001000#8] = .command (.settiming 25#8 8#8) [] := by decide
theorem test_decode_sendsony :
    decode [0b10000001#8, 0b11111111#8, 0b11111111#8, 0b11110000#8, 0b00000001#8, 0b00001100#8] = .command (.sendsony 0xFFFFF001#32 12#8) [] := by decide
theorem test_decode_sendnec :
    decode [0b10000010#8, 0b00100000#8, 0b11011111#8, 0b00010000#8, 0b11101111#8, 0b00100000#8] = .command (.sendnec 0x20DF10EF#32 32#8) [] := by decide
theorem test_decode_sendrc5 :
    decode [0b10000011#8, 0b00000000#8, 0b00000000#8, 0b00001000#8, 0b00001100#8, 0b00001100#8] = .command (.sendrc5 0x80C#32 12#8) [] := by decide
theorem test_decode_sendrc6 :
    decode [0b10000100#8, 0b00000000#8, 0b00000000#8, 0b00000000#8, 0b00001001#8, 0b00000100#8] = .command (.sendrc6 9#32 4#8) [] := by decide
/-- V112 to V115. -/
theorem test_decode_rejects : (decode [0x40#8, 1#8, 9#8], decode [0x63#8, 0xFF#8], decode [0x85#8, 0#8], decode [0x7F#8], decode [0x00#8], decode [0xFF#8]) =
    (.notACommand, .notACommand, .notACommand, .notACommand, .notACommand, .notACommand) := by decide
theorem test_decode_short : (decode [0x21#8, 1#8], decode [0x25#8], decode []) = (.incomplete, .incomplete, .incomplete) := by decide
/-- Bit 0 of a table word is the least significant bit of the first byte. -/
theorem test_table_word : decodeTableWord 24 0x081980 = some (.settiming 0x19#8 0x08#8) ∧ decodeTableWord 8 0x84 = some (.sendrc6 0#32 0#8) := by decide
theorem test_fetch_word_runs_after_reset :
    look (step (State.reset.withFetchWord 24 0x081980)) (fun t => (t.irPeriod, t.irDuty, t.port, t.trace)) = some (25#8, 8#8, [], [.reset]) := by decide

/-! ### Configuration commands -/

/-- V12: a running carrier is not touched. -/
theorem test_settiming : look (exec (.settiming 25#8 8#8) carrying) (fun t => (t.irPeriod, t.irDuty, t.actPeriod, t.gate)) = some (25#8, 8#8, 30#8, true) := by decide
/-- V11: a duty above the period is stored as given. -/
theorem test_settiming_duty_above : look (exec (.settiming 0#8 255#8) idle) (fun t => (t.irPeriod, t.irDuty)) = some (0#8, 255#8) := by decide
/-- V20 to V26, V28, V30, V34, V35. -/
theorem test_setfreq_formulas :
    (freqPeriod 1000000 38000, freqDuty 1000000 38000 50, freqDuty 1000000 38000 100, freqDuty 1000000 38000 200, freqDuty 1000000 38000 255) =
      (some 25#8, some 50#8, some 25#8, some 12#8, some 9#8) ∧
    (freqPeriod 1000000 65535, freqDuty 1000000 65535 50, freqPeriod 1000000 3906, freqDuty 1000000 3906 100, freqPeriod 38000 38000, freqDuty 38000 38000 50) =
      (some 14#8, some 28#8, some 255#8, some 255#8, some 0#8, some 0#8) := by decide
/-- V27, V29, V31 to V34: `any u8`. -/
theorem test_setfreq_open :
    (freqPeriod 8000000 38000, freqDuty 8000000 38000 33, freqDuty 1000000 3906 50, freqPeriod 1000000 3000, freqPeriod 16000 38000) =
      (some 209#8, none, none, none, none) ∧
    (freqDuty 16000 38000 50, freqPeriod 1000000 0, freqDuty 1000000 0 50, freqPeriod 1000000 38000, freqDuty 1000000 38000 0) =
      (none, none, none, some 25#8, none) := by decide
/-- R59: repeating SETFREQ with open results (V33: `freq = 0`) leaves both registers as they were. -/
theorem test_setfreq_repeats (t : State) (h : exec (.setfreq 0#8 0#8 50#8) idle = .next t) : exec (.setfreq 0#8 0#8 50#8) t = .next t := by
  cases h; rfl
/-- V41. -/
theorem test_carrier_on : look (exec (.carrier 0xFF#8) idle) (fun t => (t.actPeriod, t.actDuty, t.status, t.trace)) =
    some (25#8, 8#8, 1#8, [.reset, .carrier true 25#8 8#8]) := by decide
/-- V42: no latch on off. -/
theorem test_carrier_off : look (exec (.carrier 0#8) carrying) (fun t => (t.actPeriod, t.actDuty, t.status, t.trace)) =
    some (30#8, 9#8, 0#8, [.reset, .carrier true 30#8 9#8, .carrier false 30#8 9#8]) := by decide

/-! ### Send commands -/

/-- V52 and the worked example of R140: the first and the last data marks are long. -/
theorem test_senddg_pulses :
    let ps := pulsesDG refset [0x80#8, 0#8, 0#8, 0#8, 0#8, 0#8, 0#8, 0x01#8]
    ps.take 6 = [.mark 2400, .space 600, .mark 1200, .space 600, .mark 600, .space 600] ∧
      ps.drop 126 = [.mark 600, .space 600, .mark 1200, .space 600] ∧ ps.length = 130 ∧ dur ps = 81000 := by decide +kernel
theorem test_senddg_issue : look (exec (.senddg 0x55#8 1#8 9#8 0x63#8 0xFF#8 0#8 0xFF#8 0xC0#8) carrying) (fun t => (t.actPeriod, t.status, t.q.length, t.trace)) =
    some (25#8, 3#8, 130, [.reset, .carrier true 30#8 9#8, .txstart .DG 25#8 8#8]) := by decide +kernel
/-- V60. -/
theorem test_sendsony_pulses : pulsesSony refset 5#32 3 =
    [.mark 2400, .space 600, .mark 1200, .space 600, .mark 600, .space 600, .mark 1200, .space 600, .space 0] := by decide
/-- V66. -/
theorem test_sendsony_refused : refusal (exec (.sendsony 5#32 33#8) idle) = some .bitCountOutOfRange := by decide
/-- V67 to V69. -/
theorem test_sendraw_code : (rawCode .BE 0x0A#8 0x90#8, rawCode .BE 0xFA#8 0x90#8, rawCode .LE 0x90#8 0x0A#8) = (0xA90#32, 0xA90#32, 0xA90#32) := by decide
theorem test_sendraw_issue : look (exec (.sendraw 0x0A#8 0x90#8) idle) (fun t => (t.q.length, t.status, t.trace)) =
    some (27, 2#8, [.reset, .txstart .SONY 25#8 8#8]) := by decide
/-- V80. -/
theorem test_sendnec_pulses : pulsesNec refset 1#32 2 =
    [.mark 9000, .space 4500, .mark 560, .space 560, .mark 560, .space 1600, .mark 560, .space 0] := by decide
/-- V81, V82. -/
theorem test_sendnec_long : dur (pulsesNec refset 0x20DF10EF#32 32) = 66540 ∧ refusal (exec (.sendnec 1#32 0#8) idle) = some .bitCountOutOfRange := by decide
/-- V83. -/
theorem test_sendrc5_pulses : pulsesRc5 refset 2#32 2 =
    [.mark 889, .space 889, .mark 889, .space 889, .mark 889, .mark 889, .space 889, .space 0] := by decide
/-- V86. -/
theorem test_sendrc5_long : (pulsesRc5 refset 0x80C#32 12).length = 28 ∧ dur (pulsesRc5 refset 0x80C#32 12) = 24003 := by decide
/-- V87. -/
theorem test_sendrc6_pulses : pulsesRc6 refset 9#32 4 =
    [.mark 2666, .space 889, .mark 444, .space 444, .mark 444, .space 444, .space 444, .mark 444, .space 444, .mark 444, .mark 888, .space 888, .space 0] := by decide
/-- V89: position 3 is a 0. -/
theorem test_sendrc6_doubled_zero : pulsesRc6 refset 0xC#32 5 =
    [.mark 2666, .space 889, .mark 444, .space 444, .space 444, .mark 444, .mark 444, .space 444, .mark 444, .space 444, .space 888, .mark 888, .space 444, .mark 444,
     .space 0] := by decide

/-! ### Primitives, steps, envelope, framing, output -/

/-- V2, V3. -/
theorem test_mark_space : ((marking []).mark 600).now = 605 ∧ ((marking []).mark 600).gate = true ∧ ((marking []).space 0).gate = false ∧ ((marking []).space 0).now = 5 := by decide
/-- V5, V8. -/
theorem test_envelope : envelope [.mark 889, .space 889, .mark 889, .mark 889, .space 889, .space 0] = [.mark 889, .space 889, .mark 1778, .space 889] ∧
    envelope [.mark 0, .space 600, .space 0, .space 600] = [.space 1200] := by decide
/-- V45: a command presented while BUSY = 1 waits. -/
theorem test_step_holds : look (step { sending [.mark 7] with port := [0x25#8, 1#8] }) (fun t => (t.q, t.port, t.status, t.now)) = some ([], [0x25#8, 1#8], 3#8, 7) := by decide
theorem test_step_finish : look (step (sending [])) (fun t => (t.status, t.trace)) = some (0#8, [.reset, .txstart .SONY 30#8 9#8, .txend]) := by decide
theorem test_step_reset : look (step { marking [.space 3] with rstLine := [true] }) (fun t => (t.status, t.q, t.now, t.rstLine)) = some (0#8, [], 0, []) := by decide
/-- V113 at the port. -/
theorem test_step_refuses : refusal (step { idle with port := [0x63#8, 0xFF#8, 0x00#8, 0xFF#8] }) = some .notAnEncoderCommand := by decide
/-- V100 to V103. -/
theorem test_checksum : (checksum [0x55#8, 1#8, 9#8, 0x63#8, 0xFF#8, 0#8, 0xFF#8], checksum [0x55#8, 0x55#8, 0xFD#8, 3#8, 0x63#8, 0#8, 0#8],
    checksum [0xFF#8, 0xFF#8, 0xFF#8, 0xFF#8, 0xFF#8, 0xFF#8, 0xFF#8]) = (0xC0#8, 0x0D#8, 0xF9#8) := by decide
/-- V105: what a host stop sends. -/
theorem test_host_stop : hostReach 1#8 9#8 0x4F#8 ⟨0#8, 0#8, 0#8, 7#8, 7#8, 7#8, 7#8, 7#8⟩ = .command (.senddg 0x55#8 1#8 9#8 0x4F#8 0#8 0#8 0#8 0xAE#8) := by decide
/-- R185: `@` reaches nothing, `^` a datagram the document does not give. -/
theorem test_host_other : hostReach 1#8 9#8 0x40#8 ⟨1#8, 9#8, 0#8, 0#8, 0#8, 0#8, 0#8, 0#8⟩ = .nothing ∧
    hostReach 1#8 9#8 0x5E#8 ⟨1#8, 9#8, 0#8, 0#8, 0#8, 0#8, 0#8, 0#8⟩ = .unknownDatagram := by decide
/-- The note after the SETFREQ vectors: the rate after a latch of V20. -/
theorem test_carrier_rate : carrierRate 1000000 25#8 = 38461 := by decide
theorem test_port_signals : (idle.cmdReady, (sending []).cmdReady, { idle with port := [0x25#8] }.cmdValid, { idle with port := [0x25#8, 0#8] }.cmdValid) =
    (true, false, false, true) := by decide

/-! ### Witnesses: a concrete input that meets the hypotheses of each statement that has some -/

theorem witness_DecodedBytesAreItsEncoding : decode [0x25#8, 1#8, 0x80#8] = .command (.carrier 1#8) [0x80#8] := by decide
theorem witness_LengthFixedByFirstByte : decode (0x84#8 :: [0#8, 0#8, 0#8, 9#8, 4#8, 0x25#8]) = .command (.sendrc6 9#32 4#8) [0x25#8] := by decide
/-- One byte short, and exactly long enough. -/
theorem witness_ShortStringIsNoCommand : (0x24#8, 2) ∈ [(0x21#8, 8), (0x23#8, 3), (0x24#8, 2)] ∧ [1#8].length < 2 ∧ 2 ≤ [1#8, 2#8].length := by decide
/-- A percentage above 100, with `tv = 25` (V10's frequency). -/
theorem witness_FrequencyIsBigEndian :
    idle.busy = false ∧ (0x94#8 ++ 0x70#8 : BitVec 16) ≠ 0#16 ∧ (200#8 : Byte) ≠ 0#8 ∧
    (1000000 : Int) / ((0x94#8 ++ 0x70#8 : BitVec 16).toNat : Int) - 1 = 25 ∧ (25 : Int) * 100 / ((200#8 : Byte).toNat : Int) = 12 := by decide
theorem witness_OperandBytesByPosition : idle.busy = false ∧ (1#8 : Byte) ≠ 0#8 ∧ (255#8 : Byte) ≠ 0#8 := by decide
theorem witness_SettimingStoresBoth : idle.busy = false ∧ carrying.busy = false := by decide
/-- The period's clause at `tv = 0` and `tv = 255`, the duty's at `dv = 255` (V28, V35). -/
theorem witness_SetfreqStoresFormulas :
    idle.busy = false ∧
    (256 * (0x94#8).toNat + (0x70#8).toNat : Int) ≠ 0 ∧ (38000 : Int) / (256 * (0x94#8).toNat + (0x70#8).toNat) - 1 = 0 ∧
    (1000000 : Int) / (256 * (0x0F#8).toNat + (0x42#8).toNat) - 1 = 255 ∧ (100#8 : Byte) ≠ 0#8 ∧ (255 : Int) * 100 / ((100#8 : Byte).toNat : Int) = 255 := by decide
/-- Each way a result is open, at its boundary: `freq = 0`, `tv = -1`, `tv = 256`, `dp = 0`, `dv = 256`. -/
theorem witness_SetfreqOpenResultsAreDrawn :
    freqOf 0#8 0#8 = 0 ∧ timerValue 16000 (freqOf 0x94#8 0x70#8) = -1 ∧ timerValue 257 (freqOf 0#8 1#8) = 256 ∧ (0#8 : Byte) = 0#8 ∧
    dutyValue (timerValue 65 (freqOf 0#8 1#8)) (25#8 : Byte).toNat = 256 ∧
    freqOf 0#8 1#8 ≠ 0 ∧ timerValue 1 (freqOf 0#8 1#8) = 0 ∧ timerValue 256 (freqOf 0#8 1#8) = 255 := by decide
theorem witness_SetfreqArithmeticLaws : 0 < 1 ∧ (0 : Int) ≤ 0 ∧ 1 ≤ 1 ∧ (0 : Int) ≤ 255 ∧ 1 ≤ 100 ∧ 100 ≤ 100 := by decide
theorem witness_CarrierSwitchesGate : idle.busy = false ∧ carrying.busy = false ∧ (1#8 : Byte) ≠ 0#8 := by decide
theorem witness_RepeatingLeavesRegisters :
    idle.busy = false ∧ (∃ t, exec (.settiming 1#8 2#8) idle = .next t) ∧ (∃ t, exec (.setfreq 0#8 0#8 50#8) idle = .next t) ∧
    (∃ t, exec (.carrier 0#8) idle = .next t) ∧ ∃ t, exec (.carrier 1#8) idle = .next t :=
  ⟨by decide, ⟨_, rfl⟩, ⟨_, rfl⟩, ⟨_, rfl⟩, ⟨_, rfl⟩⟩
theorem witness_ConfigCommandFrame :
    ((Instr.settiming 1#8 2#8).isSend = false ∧ ∃ t, exec (.settiming 1#8 2#8) idle = .next t) ∧
    ((Instr.setfreq 1#8 2#8 3#8).isSend = false ∧ ∃ t, exec (.setfreq 1#8 2#8 3#8) idle = .next t) ∧
    ((Instr.carrier 0#8).isSend = false ∧ ∃ t, exec (.carrier 0#8) carrying = .next t) ∧ (∀ en, Instr.settiming 1#8 2#8 ≠ .carrier en) :=
  ⟨⟨rfl, _, rfl⟩, ⟨rfl, _, rfl⟩, ⟨rfl, _, rfl⟩, nofun⟩
/-- The clauses at their boundary bits: byte 0 bit 7 and byte 7 bit 0; and a released reset line with samples on it. -/
theorem witness_SenddgSendsSixtyFourBits : idle.busy = false ∧ (0 < 8 ∧ 7 < 8) ∧ { idle with rstLine := [false, false] }.Quiet 131 := by
  refine ⟨by decide, by decide, ?_⟩; unfold State.Quiet; decide
theorem witness_SendsonyPulses : idle.busy = false ∧ 1 ≤ (1#8 : Byte).toNat ∧ (1#8 : Byte).toNat ≤ 32 ∧ 1 ≤ (32#8 : Byte).toNat ∧ (32#8 : Byte).toNat ≤ 32 := by decide
theorem witness_SendrawIsSendsonyTwelve : idle.busy = false ∧ carrying.busy = false := by decide
theorem witness_SendnecPulses : idle.busy = false ∧ 1 ≤ (2#8 : Byte).toNat ∧ (2#8 : Byte).toNat ≤ 32 := by decide
theorem witness_SendrcFivePulses :
    idle.busy = false ∧ 1 ≤ (2#8 : Byte).toNat ∧ (2#8 : Byte).toNat ≤ 32 ∧ (2#32).getLsbD (2 - 1 - 0) = true ∧ (2#32).getLsbD (2 - 1 - 1) = false := by decide
theorem witness_SendrcSixPulses :
    idle.busy = false ∧ 1 ≤ (5#8 : Byte).toNat ∧ (5#8 : Byte).toNat ≤ 32 ∧ (0xC#32).getLsbD (5 - 1 - 3) = false ∧ (0xE#32).getLsbD (5 - 1 - 3) = true := by decide
theorem witness_ReservedBitCountRefused : Instr.sendrc6 1#32 0#8 ∈ [Instr.sendsony 1#32 0#8, .sendnec 1#32 0#8, .sendrc5 1#32 0#8, .sendrc6 1#32 0#8] := by decide
theorem witness_HighBitsIgnored : (∀ k < (12#8 : Byte).toNat, (0xFFFFF001#32).getLsbD k = (0x001#32).getLsbD k) ∧ (0xFFFFF001#32) ≠ 0x001#32 := by decide
theorem witness_SendCommandFrame :
    (Instr.sendsony 5#32 3#8).isSend = true ∧ carrying.busy = false ∧ ∃ t, exec (.sendsony 5#32 3#8) carrying = .next t := ⟨rfl, by decide, _, rfl⟩
theorem witness_CommandHeldWhileBusy : (sending []).busy = true ∧ (Instr.carrier 1#8).wellFormed = true ∧ (Instr.sendsony 5#32 3#8).wellFormed = true := by decide
theorem witness_EnvelopeIsTheWaveform : envelope [.mark 1, .mark 2] = envelope [.mark 3] := by decide
theorem witness_PulseListsEndInSpace :
    (Instr.sendrc5 1#32 1#8).wellFormed = true ∧ sendOf refset (.sendrc5 1#32 1#8) = some (.RC5, pulsesRc5 refset 1#32 1) := by decide
theorem witness_StepRunsDecodedCommand :
    { idle with port := [0x25#8, 1#8] }.rst = false ∧ { idle with port := [0x25#8, 1#8] }.busy = false ∧ decode [0x25#8, 1#8] = .command (.carrier 1#8) [] := by decide
theorem witness_PlacedInstructionRuns : decodeTableWord 16 0x0125 = some (.carrier 1#8) := by decide
theorem witness_MarkOpensGate :
    (sending [.mark 7, .space 0]).rst = false ∧ (sending [.mark 7, .space 0]).busy = true ∧ (sending [.mark 7, .space 0]).q = .mark 7 :: [.space 0] ∧
    ∃ t, step (sending [.mark 7, .space 0]) = .next t ∧ t.trace = (sending [.mark 7, .space 0]).trace ++ [.mark 7] :=
  ⟨by decide, by decide, by decide, _, rfl, by decide⟩
theorem witness_SpaceClosesGate :
    (marking [.space 0]).rst = false ∧ (marking [.space 0]).busy = true ∧ (marking [.space 0]).q = .space 0 :: [] ∧
    ∃ t, step (marking [.space 0]) = .next t ∧ t.trace = (marking [.space 0]).trace ++ [.space 0] :=
  ⟨by decide, by decide, by decide, _, rfl, by decide⟩
theorem witness_FinishEndsTransmission : (sending []).rst = false ∧ (sending []).busy = true ∧ (sending []).q = [] := by decide
theorem witness_ResetStepFromEveryState : { marking [.space 3] with rstLine := [true] }.rst = true := by decide
theorem witness_IdleStepChangesNothing :
    { idle with port := [0x21#8, 0#8] }.rst = false ∧ { idle with port := [0x21#8, 0#8] }.busy = false ∧ decode [0x21#8, 0#8] = .incomplete := by decide

/-- A state in a transmission meets the invariant. -/
theorem sending_inv : (sending [.mark 7, .space 0]).Inv where
  statusReserved := by decide
  idleQueueEmpty := by decide
  queueBounded := by decide
  endsInSpace := by decide
  traceWellFormed := by decide
  busyIsOpen := by decide
  latchedHeld := by
    intro sch p d h
    have : (observe (sending [.mark 7, .space 0]).trace).transmission = some (.SONY, 30#8, 9#8) := by decide
    rw [this] at h
    cases h
    decide
  gateObserved := by decide
  nowObserved := by decide

theorem witness_StepKeepsInvariant : (sending [.mark 7, .space 0]).Inv ∧ ∃ t, step (sending [.mark 7, .space 0]) = .next t := ⟨sending_inv, _, rfl⟩
theorem witness_SendCommandTransmits :
    (Instr.sendsony 5#32 3#8).wellFormed = true ∧ sendOf Config.cfg (.sendsony 5#32 3#8) = some (.SONY, pulsesSony Config.cfg 5#32 3) ∧
    (sending []).busy = true ∧ carrying.busy = false ∧
    carrying.Quiet ((pulsesSony Config.cfg 5#32 3).length + 1) := ⟨rfl, rfl, by decide, by decide, by simp [State.Quiet, carrying, idle]⟩
theorem witness_BigStepIsSmallSteps :
    carrying.busy = false ∧ carrying.q = [] ∧ { carrying with rstLine := [false, false, false, true] }.Quiet ([Pulse.mark 1, .space 2].length + 1) := by
  refine ⟨by decide, by decide, ?_⟩; unfold State.Quiet; decide
/-- Cut before the first pulse, and after the last. -/
theorem witness_ResetCutsTransmission :
    idle.busy = false ∧ (0 ≤ [Pulse.mark 1].length ∧ [true] = List.replicate 0 false ++ true :: []) ∧
    (1 ≤ [Pulse.mark 1].length ∧ [false, true, false] = List.replicate 1 false ++ true :: [false]) := by decide
theorem witness_TransmissionAlwaysEnds :
    (sending [.mark 7, .space 0]).Inv ∧ (sending [.mark 7, .space 0]).busy = true ∧ (sending [.mark 7, .space 0]).Quiet 131 :=
  ⟨sending_inv, by decide, by simp [State.Quiet, sending, idle]⟩
theorem witness_TraceOnlyGrows : ∃ t, step (sending []) = .next t := ⟨_, rfl⟩
theorem witness_LatchOnlyAtItsTwoPlaces : ∃ t, step { idle with port := [0x25#8, 1#8] } = .next t ∧ t.actPeriod ≠ idle.actPeriod := ⟨_, rfl, by decide⟩
theorem witness_ProgrammedRegistersWriters : ∃ t, step { idle with port := [0x80#8, 1#8, 2#8] } = .next t ∧ t.irPeriod ≠ idle.irPeriod := ⟨_, rfl, by decide⟩
/-- Opened by a mark and by CARRIER, closed by a space, by CARRIER and by a reset. -/
theorem witness_GateWriters :
    (∃ t, step (sending [.mark 7]) = .next t ∧ (sending [.mark 7]).gate = false ∧ t.gate = true) ∧
    (∃ t, step { idle with port := [0x25#8, 1#8] } = .next t ∧ idle.gate = false ∧ t.gate = true) ∧
    (∃ t, step (marking [.space 0]) = .next t ∧ (marking [.space 0]).gate = true ∧ t.gate = false) ∧
    (∃ t, step { carrying with port := [0x25#8, 0#8] } = .next t ∧ carrying.gate = true ∧ t.gate = false) ∧
    ∃ t, step { carrying with rstLine := [true] } = .next t ∧ carrying.gate = true ∧ t.gate = false :=
  ⟨⟨_, rfl, by decide, by decide⟩, ⟨_, rfl, by decide, by decide⟩, ⟨_, rfl, by decide, by decide⟩, ⟨_, rfl, by decide, by decide⟩, ⟨_, rfl, by decide, by decide⟩⟩
theorem witness_BusyWriters :
    (∃ t, step { idle with port := [0x24#8, 0#8, 0#8] } = .next t ∧ idle.busy = false ∧ t.busy = true) ∧
    ∃ t, step (sending []) = .next t ∧ (sending []).busy = true ∧ t.busy = false :=
  ⟨⟨_, rfl, by decide, by decide⟩, ⟨_, rfl, by decide, by decide⟩⟩
theorem witness_ClockCountsPulsesOnly :
    (∃ t, step { marking [.space 3] with rstLine := [true] } = .next t ∧ { marking [.space 3] with rstLine := [true] }.rst = true) ∧
    (∃ t, step (marking [.space 3]) = .next t ∧ (marking [.space 3]).rst = false ∧ (marking [.space 3]).busy = true) ∧
    ∃ t, step idle = .next t ∧ idle.rst = false ∧ idle.busy = false :=
  ⟨⟨_, rfl, by decide⟩, ⟨_, rfl, by decide, by decide⟩, ⟨_, rfl, by decide, by decide⟩⟩
theorem witness_PortIgnoredWhileBusy : (sending [.mark 7]).busy = true := by decide
/-- An idle step, a SETTIMING and a pulse: none of them latches. -/
theorem witness_CarrierValuesWaitForLatch :
    (∃ t, step idle = .next t) ∧ (∀ i rest, decode idle.port = .command i rest → i.isSend = false ∧ ∀ en, en ≠ 0#8 → i ≠ .carrier en) ∧
    (∃ t, step { idle with port := [0x80#8, 1#8, 2#8] } = .next t) ∧
    (∀ i rest, decode [0x80#8, 1#8, 2#8] = .command i rest → i.isSend = false ∧ ∀ en, en ≠ 0#8 → i ≠ .carrier en) ∧
    ∃ t, step (sending [.mark 7]) = .next t := by
  refine ⟨⟨_, rfl⟩, fun i rest h => ?_, ⟨_, rfl⟩, fun i rest h => ?_, ⟨_, rfl⟩⟩
  · cases h
  · have hd : decode [0x80#8, 1#8, 2#8] = .command (.settiming 1#8 2#8) [] := by decide
    rw [hd] at h
    cases h
    exact ⟨rfl, fun _ _ => nofun⟩
theorem witness_RegisterFileView : 5 ≤ 5 ∧ 2 ≤ 2 := by decide
theorem witness_OutputFollowsGate : idle.gate = false ∧ carrying.gate = true := by decide
theorem witness_HostDatagramsCarryChecksum :
    (0x2A#8 : Byte) ≠ 0x21#8 ∧ hostReach 0x55#8 9#8 0x2A#8 ⟨3#8, 0x63#8, 0#8, 0#8, 0#8, 0#8, 0#8, 0#8⟩ =
      .command (.senddg 0x55#8 0x55#8 0xFD#8 3#8 0x63#8 0#8 0#8 0x0D#8) := by decide

end Sys2Proof.Tests
end

/-! ## Encoding: the decoder read backwards, and the operands of SETFREQ, SENDDG, SETTIMING and CARRIER (30_encoding.md) -/

namespace Sys2Proof

/-! ### A command's bytes -/

/-- Family `Encoded` for every command. -/
theorem Laws.Encoded.all (i : Instr) : Laws.Encoded.Statement i := by
  cases i with
  | senddg => exact senddg ..
  | setfreq => exact setfreq ..
  | sendraw => exact sendraw ..
  | carrier => exact carrier ..
  | settiming => exact settiming ..
  | sendsony => exact sendsony ..
  | sendnec => exact sendnec ..
  | sendrc5 => exact sendrc5 ..
  | sendrc6 => exact sendrc6 ..

theorem commandLength_byte (o : Opcode) : commandLength o.byte = o.operandBytes + 1 := by
  simp [commandLength]

theorem encodeShort_valueOf (c0 v3 v2 v1 v0 n : Byte) :
    encodeShort c0 (valueOf v3 v2 v1 v0) n = [c0, v3, v2, v1, v0, n] := by
  obtain ⟨h3, h2, h1, h0⟩ := byteOfValue_valueOf v3 v2 v1 v0
  rw [encodeShort, h3, h2, h1, h0]

/-- What a row assembles to a command is the encoding of that command, without its opcode byte, and the bytes left over. -/
theorem byte_cons_eq_encode_append {o : Opcode} {operands rest : List Byte} {i : Instr}
    (h : assemble o operands = .command i rest) : o.byte :: operands = encode i ++ rest := by
  unfold assemble at h
  split at h
  case h_10 => cases h -- no row: too few bytes
  case h_6 | h_7 | h_8 | h_9 => -- the short codes, format B5
    cases h
    rw [encode, encodeShort_valueOf]
    rfl
  all_goals -- the rows whose operands are the bytes themselves
    cases h
    rfl

/-- The decoder drops no bit: what decodes to a command is its encoding and the bytes left over. -/
theorem eq_encode_append_of_decode {bytes rest : List Byte} {i : Instr}
    (h : decode bytes = .command i rest) : bytes = encode i ++ rest := by
  cases bytes with
  | nil => cases h
  | cons c0 operands =>
    cases ho : opcodeOf c0 with
    | none => simp [decode, ho] at h
    | some o =>
      obtain rfl := (opcodeOf_eq_some_iff c0 o).mp ho
      rw [decode_of_opcode] at h
      exact byte_cons_eq_encode_append h

/-- Settles O4: a decoded string is `encode i ++ rest`, and `encode i` is the first byte's row: its opcode byte and its number of
operand bytes. -/
theorem lengthFixedByFirstByte : Obligations.LengthFixedByFirstByte := by
  intro c0
  refine ⟨commandLength c0 - 1, fun operands i rest h => ?_⟩
  obtain ⟨own, henc, hlen⟩ := Laws.Encoded.all i
  have hbytes := eq_encode_append_of_decode h
  rw [henc, List.cons_append, List.cons.injEq] at hbytes
  obtain ⟨rfl, rfl⟩ := hbytes
  rw [commandLength_byte, Nat.add_sub_cancel, ← hlen, henc]
  exact ⟨Nat.add_comm .., by simp, by simp⟩

/-! ### Operands by position -/

theorem decode_senddg (b0 b1 b2 b3 b4 b5 b6 b7 : Byte) (rest : List Byte) :
    decode (0x21#8 :: b0 :: b1 :: b2 :: b3 :: b4 :: b5 :: b6 :: b7 :: rest) = .command (.senddg b0 b1 b2 b3 b4 b5 b6 b7) rest :=
  decode_of_opcode .senddg _

theorem decode_setfreq (fh fl dp : Byte) (rest : List Byte) :
    decode (0x23#8 :: fh :: fl :: dp :: rest) = .command (.setfreq fh fl dp) rest :=
  decode_of_opcode .setfreq _

theorem decode_carrier (en : Byte) (rest : List Byte) : decode (0x25#8 :: en :: rest) = .command (.carrier en) rest :=
  decode_of_opcode .carrier _

theorem decode_settiming (p d : Byte) (rest : List Byte) :
    decode (0x80#8 :: p :: d :: rest) = .command (.settiming p d) rest :=
  decode_of_opcode .settiming _

end Sys2Proof

namespace Sys2Proof.Machine

/-! ### What the three commands do while the block is ready -/

theorem exec_senddg_of_idle {s : State} (hb : s.busy = false) (b0 b1 b2 b3 b4 b5 b6 b7 : Byte) :
    exec (.senddg b0 b1 b2 b3 b4 b5 b6 b7) s =
      .next (s.startTransmit .DG (pulsesDG Config.cfg [b0, b1, b2, b3, b4, b5, b6, b7])) :=
  whenReady_of_idle hb _

theorem exec_setfreq_of_idle {s : State} (hb : s.busy = false) (fh fl dp : Byte) :
    exec (.setfreq fh fl dp) s = .next (s.setFreq Config.cfg.clockHz fh fl dp) :=
  whenReady_of_idle hb _

/-- Every nonzero operand of CARRIER switches the carrier on (R75, 30_encoding.md), whether the block is ready or not. -/
theorem exec_carrier_of_ne_zero {en : Byte} (hen : en ≠ 0#8) (s : State) :
    exec (.carrier en) s = whenReady s State.carrierOn := by
  simp only [exec, execCarrier, if_neg hen]

/-- The pulse list of a transmission only fills the queue. -/
theorem startTransmit_eq_with_q (sch : Scheme) (ps qs : List Pulse) (s : State) :
    s.startTransmit sch ps = { s.startTransmit sch qs with q := ps } := rfl

/-- Settles O8: the positions are the decoder's rows; SENDDG's bytes reach only the queue of the transmission they start; a nonzero
operand of CARRIER is the one effect `carrierOn`. -/
theorem operandBytesByPosition : Obligations.OperandBytesByPosition := by
  refine ⟨decode_senddg, decode_settiming, decode_carrier, fun s hb => ?_, fun s en en' hen hen' => ?_⟩
  · refine ⟨s.startTransmit .DG [], fun b0 b1 b2 b3 b4 b5 b6 b7 => ⟨pulsesDG Config.cfg [b0, b1, b2, b3, b4, b5, b6, b7], ?_⟩⟩
    rw [exec_senddg_of_idle hb, ← startTransmit_eq_with_q]
  · rw [exec_carrier_of_ne_zero hen, exec_carrier_of_ne_zero hen']

/-! ### The arithmetic of SETFREQ where its results fit a byte -/

theorem freqOf_eq_append_toNat (fh fl : Byte) : freqOf fh fl = (fh ++ fl : BitVec 16).toNat := by
  rw [BitVec.toNat_append, ← Nat.shiftLeft_add_eq_or_of_lt fl.isLt, Nat.shiftLeft_eq, freqOf, Nat.mul_comm]

theorem toNat_fitByte_getD {v : Int} (h0 : 0 ≤ v) (h255 : v ≤ 255) (b : Byte) : (((fitByte v).getD b).toNat : Int) = v := by
  rw [fitByte, if_pos ⟨h0, h255⟩, Option.getD_some, BitVec.toNat_ofInt]
  omega

theorem freqPeriod_of_ne_zero {freq : Nat} (hf : freq ≠ 0) (clockHz : Nat) :
    freqPeriod clockHz freq = fitByte (timerValue clockHz freq) := if_neg hf

theorem freqDuty_of_timerValue_fits {clockHz freq dp : Nat} (hf : freq ≠ 0) (hdp : dp ≠ 0)
    (h0 : 0 ≤ timerValue clockHz freq) (h255 : timerValue clockHz freq ≤ 255) :
    freqDuty clockHz freq dp = fitByte (dutyValue (timerValue clockHz freq) dp) := by
  have hopen : ¬ (dp = 0 ∨ timerValue clockHz freq < 0 ∨ 255 < timerValue clockHz freq) := by omega
  rw [freqDuty, if_neg hf, if_neg hopen]

/-- SETFREQ's period where the formula's result fits a byte (R122, 41_timer_control.md). -/
theorem setFreq_irPeriod_toNat {clockHz : Nat} {fh fl : Byte} (hf : freqOf fh fl ≠ 0)
    (h0 : 0 ≤ timerValue clockHz (freqOf fh fl)) (h255 : timerValue clockHz (freqOf fh fl) ≤ 255) (dp : Byte) (s : State) :
    ((s.setFreq clockHz fh fl dp).irPeriod.toNat : Int) = timerValue clockHz (freqOf fh fl) := by
  rw [setFreq_eq, freqPeriod_of_ne_zero hf]
  exact toNat_fitByte_getD h0 h255 _

/-- SETFREQ's duty value where both formulas' results fit a byte, at every percentage but zero (R122, 41_timer_control.md). -/
theorem setFreq_irDuty_toNat {clockHz : Nat} {fh fl dp : Byte} (hf : freqOf fh fl ≠ 0) (hdp : dp.toNat ≠ 0)
    (h0 : 0 ≤ timerValue clockHz (freqOf fh fl)) (h255 : timerValue clockHz (freqOf fh fl) ≤ 255)
    (hd : dutyValue (timerValue clockHz (freqOf fh fl)) dp.toNat ≤ 255) (s : State) :
    ((s.setFreq clockHz fh fl dp).irDuty.toNat : Int) = dutyValue (timerValue clockHz (freqOf fh fl)) dp.toNat := by
  rw [setFreq_eq, freqDuty_of_timerValue_fits hf hdp h0 h255]
  have hd0 : 0 ≤ dutyValue (timerValue clockHz (freqOf fh fl)) dp.toNat :=
    Int.ediv_nonneg (Int.mul_nonneg h0 (by decide)) (Int.natCast_nonneg _)
  exact toNat_fitByte_getD hd0 hd _

/-- Settles O7: `freqOf` is the 16-bit number `{fh, fl}`, and the two stored results are `timerValue` and `dutyValue` of it. -/
theorem frequencyIsBigEndian : Obligations.FrequencyIsBigEndian := by
  intro fh fl dp rest
  refine ⟨decode_setfreq fh fl dp rest, freqOf_eq_append_toNat fh fl, fun s hb => ⟨exec_setfreq_of_idle hb fh fl dp, ?_⟩⟩
  intro clockHz freq tv hfreq hdp h0 h255 hd
  have hf : freqOf fh fl ≠ 0 := fun h => hfreq (BitVec.eq_of_toNat_eq ((freqOf_eq_append_toNat fh fl).symm.trans h))
  have hdp' : dp.toNat ≠ 0 := fun h => hdp (BitVec.eq_of_toNat_eq h)
  have htv : tv = timerValue clockHz (freqOf fh fl) := by rw [freqOf_eq_append_toNat]; rfl
  rw [htv] at h0 h255 hd ⊢
  exact ⟨setFreq_irPeriod_toNat hf h0 h255 dp s, setFreq_irDuty_toNat hf hdp' h0 h255 hd s⟩

end Sys2Proof.Machine

/-! ## Pulses and transmissions: one pulse a step, and a send command from its acceptance to its TXEND (40_pulse_primitives.md) -/

namespace Sys2Proof.Machine

/-! ### One pulse: the step that performs it, and the only step that records it -/

theorem step_of_pulse {s : State} {e : Pulse} {rest : List Pulse} (hr : s.rst = false) (hb : s.busy = true)
    (hq : s.q = e :: rest) : step s = .next ((s.sampleRst.setQ rest).perform e) := by
  rw [step_of_busy hr hb, sequence_cons (s := s.sampleRst) hq]

theorem step_of_queue_empty {s : State} (hr : s.rst = false) (hb : s.busy = true) (hq : s.q = []) :
    step s = .next s.sampleRst.finish := by
  rw [step_of_busy hr hb, sequence_nil (s := s.sampleRst) hq]

/-- The step `Pulse` (R105), as one record. -/
theorem step_of_pulse_eq {s : State} {e : Pulse} {rest : List Pulse} (hr : s.rst = false) (hb : s.busy = true)
    (hq : s.q = e :: rest) :
    step s = .next { s with status := statusWord e.isMark true, q := rest, trace := s.trace ++ [e.event], now := s.now + e.dur,
                            rstLine := s.rstLine.tail } := by
  rw [step_of_pulse hr hb hq, perform_eq, setQ_busy, sampleRst_busy, hb]
  rfl

theorem busy_of_status {s : State} {g b : Bool} (h : s.status = statusWord g b) : s.busy = b := by
  rw [State.busy, h, statusWord_busy]

@[simp] theorem perform_busy (s : State) (e : Pulse) : (s.perform e).busy = s.busy := busy_of_status (by rw [perform_eq])
@[simp] theorem perform_q (s : State) (e : Pulse) : (s.perform e).q = s.q := by rw [perform_eq]
@[simp] theorem perform_trace (s : State) (e : Pulse) : (s.perform e).trace = s.trace ++ [e.event] := by rw [perform_eq]
@[simp] theorem perform_rstLine (s : State) (e : Pulse) : (s.perform e).rstLine = s.rstLine := by rw [perform_eq]

@[simp] theorem Pulse.event_inj {e e' : Pulse} : e.event = e'.event ↔ e = e' := by
  cases e <;> cases e' <;> simp [Pulse.event]

/-- No command records a pulse when it is accepted: a send command only queues its pulses. -/
theorem Accepted.trace_ne_append_pulse {s t : State} {i : Instr} (h : Accepted s i t) (e : Pulse) :
    t.trace ≠ s.trace ++ [e.event] := by
  cases h with
  | send h => cases e <;> simp [startTransmit_eq, Pulse.event]
  | settiming p d => simp
  | setfreq fh fl dp => simp [setFreq_eq]
  | carrierOff => cases e <;> simp [carrierOff_eq, Pulse.event]
  | carrierOn en hen => cases e <;> simp [carrierOn_eq, Pulse.event]

/-- Of the kinds of step only `Pulse` records a pulse, and it is the head of the queue (R105, 40_pulse_primitives.md). -/
theorem head_of_step_records_pulse {s t : State} {e : Pulse} (h : step s = .next t) (ht : t.trace = s.trace ++ [e.event]) :
    s.busy = true ∧ s.q.head? = some e := by
  cases step_cases h with
  | reset hr => cases e <;> simp [State.resetBlock, Pulse.event] at ht
  | @pulse hr hb e' rest hq =>
    obtain rfl : e' = e := by simpa using ht
    exact ⟨hb, by rw [hq, List.head?_cons]⟩
  | finish hr hb hq => cases e <;> simp [finish_eq, Pulse.event] at ht
  | idle hr hb hd => simp at ht
  | issue hr hb hd hw ha => exact absurd ht (ha.trace_ne_append_pulse e)

/-- Settles O31: the primitive is `mark_eq`, the step is `Pulse` at a mark, and no other kind of step records a mark. -/
theorem markOpensGate : Obligations.MarkOpensGate :=
  ⟨mark_eq, fun _ d _ hr hb hq => step_of_pulse_eq (e := .mark d) hr hb hq,
    fun _ _ d h ht => head_of_step_records_pulse (e := .mark d) h ht⟩

/-- Settles O32: the primitive is `space_eq`, the step is `Pulse` at a space, and no other kind of step records a space. -/
theorem spaceClosesGate : Obligations.SpaceClosesGate :=
  ⟨space_eq, fun _ d _ hr hb hq => step_of_pulse_eq (e := .space d) hr hb hq,
    fun _ _ d h ht => head_of_step_records_pulse (e := .space d) h ht⟩

/-! ### A released reset line -/

theorem State.Quiet.rst_eq_false {n : Nat} {s : State} (h : s.Quiet (n + 1)) : s.rst = false := by
  cases hl : s.rstLine with
  | nil => simp [State.rst, hl]
  | cons b bs => simpa [State.rst, hl] using h b (by simp [hl])

/-- Once `j` samples of a line released for `j + k` steps are taken, it is released for `k` more. -/
theorem State.Quiet.of_drop {j k : Nat} {s t : State} (h : s.Quiet (j + k)) (ht : t.rstLine = s.rstLine.drop j) : t.Quiet k := by
  intro b hmem
  rw [ht, List.take_drop] at hmem
  exact h b (List.mem_of_mem_drop hmem)

theorem State.Quiet.mono {m n : Nat} {s : State} (h : s.Quiet n) (hmn : m ≤ n) : s.Quiet m :=
  fun b hmem => h b ((List.take_sublist_take_left hmn).subset hmem)

/-! ### A pulse list, performed in order -/

/-- The state after a pulse list is performed in order (R104, 40_pulse_primitives.md), the queue and the inputs left alone. -/
def State.performAll (ps : List Pulse) (s : State) : State := ps.foldl (fun s e => s.perform e) s

@[simp] theorem performAll_nil (s : State) : s.performAll [] = s := rfl
@[simp] theorem performAll_cons (e : Pulse) (ps : List Pulse) (s : State) :
    s.performAll (e :: ps) = (s.perform e).performAll ps := rfl

/-- Everything a pulse list does to a state whose STATUS is the word of two flags. -/
theorem performAll_eq (ps : List Pulse) {g b : Bool} {s : State} (hs : s.status = statusWord g b) :
    s.performAll ps =
      { s with status := statusWord (gateAfter g ps) b, trace := s.trace ++ ps.map Pulse.event, now := s.now + dur ps } := by
  induction ps generalizing g s with
  | nil => simp [← hs]
  | cons e ps ih =>
    have hstatus : (s.perform e).status = statusWord e.isMark b := by rw [perform_eq, busy_of_status hs]
    rw [performAll_cons, ih hstatus, perform_eq]
    simp [Nat.add_assoc]

/-- With BUSY = 1 and `rst` released, the block performs the first pulses of its queue, one a step (R105, 40_pulse_primitives.md). -/
theorem steps_eq_performAll {ps rest : List Pulse} {s : State} (hb : s.busy = true) (hq : s.q = ps ++ rest)
    (hs : s.Quiet ps.length) :
    steps ps.length s = .next (State.performAll ps { s with q := rest, rstLine := s.rstLine.drop ps.length }) := by
  induction ps generalizing s with
  | nil => simp [steps, ← show s.q = rest from hq]
  | cons e ps ih =>
    have hstep := step_of_pulse hs.rst_eq_false hb (hq.trans (List.cons_append ..))
    have hquiet : ((s.sampleRst.setQ (ps ++ rest)).perform e).Quiet ps.length :=
      State.Quiet.of_drop (j := 1) (by rwa [Nat.add_comm]) (by simp)
    simp only [List.length_cons, steps, hstep]
    rw [ih (by simpa using hb) (by simp) hquiet]
    simp [perform_eq, State.busy]

/-! ### A transmission, from its start -/

/-- The first pulses of a transmission, one a step after TXSTART (R104, R105, 40_pulse_primitives.md). -/
theorem steps_startTransmit {ps rest : List Pulse} {s : State} (hs : s.Quiet ps.length) (sch : Scheme) :
    steps ps.length (s.startTransmit sch (ps ++ rest)) =
      .next { s with actPeriod := s.irPeriod, actDuty := s.irDuty, status := statusWord (gateAfter s.gate ps) true, q := rest,
                     trace := s.trace ++ [.txstart sch s.irPeriod s.irDuty] ++ ps.map Pulse.event,
                     now := s.now + dur ps, rstLine := s.rstLine.drop ps.length } := by
  have hbusy : (s.startTransmit sch (ps ++ rest)).busy = true := busy_of_status rfl
  rw [steps_eq_performAll hbusy rfl hs, performAll_eq ps (g := s.gate) (b := true) rfl, startTransmit_eq]

/-- A whole transmission: its pulses, and the step `Finish`. -/
theorem steps_startTransmit_finish {ps : List Pulse} {s : State} (hs : s.Quiet (ps.length + 1)) (sch : Scheme) :
    steps (ps.length + 1) (s.startTransmit sch ps) =
      .next { s with actPeriod := s.irPeriod, actDuty := s.irDuty, status := statusWord (gateAfter s.gate ps) false, q := [],
                     trace := s.trace ++ [.txstart sch s.irPeriod s.irDuty] ++ ps.map Pulse.event ++ [.txend],
                     now := s.now + dur ps, rstLine := s.rstLine.drop (ps.length + 1) } := by
  have hpulses := steps_startTransmit (rest := []) (hs.mono (Nat.le_succ _)) sch
  rw [List.append_nil] at hpulses
  rw [steps_add hpulses, steps, step_of_queue_empty]
  case hr => exact (hs.of_drop rfl).rst_eq_false
  case hb => exact busy_of_status rfl
  case hq => rfl
  simp [steps, finish_eq, State.gate, State.sampleRst]

/-! ### A send command's pulse list ends in a space -/

/-- Bits whose pulses leave the gate closed leave it closed all together. -/
theorem gateAfter_flatMap {α : Type} {f : α → List Pulse} (hf : ∀ a, gateAfter false (f a) = false) (l : List α) :
    gateAfter false (l.flatMap f) = false := by
  induction l with
  | nil => rfl
  | cons a l ih => rw [List.flatMap_cons, gateAfter_append, hf, ih]

/-- Whatever the gate was, every send command's pulses leave it closed (R107, 40_pulse_primitives.md). -/
theorem gateAfter_of_sendOf {c : Cfg} {i : Instr} {sch : Scheme} {ps : List Pulse} (h : sendOf c i = some (sch, ps)) (g : Bool) :
    gateAfter g ps = false := by
  cases i with
  | senddg b0 b1 b2 b3 b4 b5 b6 b7 =>
    cases h
    rw [pulsesDG, gateAfter_append]
    exact gateAfter_flatMap (fun _ => rfl) _
  | setfreq fh fl dp => cases h
  | sendraw a0 a1 => cases h; simp [pulsesSony, Pulse.isMark]
  | carrier en => cases h
  | settiming p d => cases h
  | sendsony value n => cases h; simp [pulsesSony, Pulse.isMark]
  | sendnec value n => cases h; simp [pulsesNec, Pulse.isMark]
  | sendrc5 value n => cases h; simp [pulsesRc5, Pulse.isMark]
  | sendrc6 value n => cases h; simp [pulsesRc6, Pulse.isMark]

/-! ### Send commands -/

/-- A send command with no reserved operand starts the transmission of its pulse list, where the block is ready. -/
theorem exec_of_sendOf {i : Instr} {sch : Scheme} {ps : List Pulse} (hw : i.wellFormed = true)
    (h : sendOf Config.cfg i = some (sch, ps)) (s : State) : exec i s = whenReady s fun s => s.startTransmit sch ps := by
  cases i with
  | senddg b0 b1 b2 b3 b4 b5 b6 b7 => cases h; rfl
  | setfreq fh fl dp => cases h
  | sendraw a0 a1 => cases h; rfl
  | carrier en => cases h
  | settiming p d => cases h
  | sendsony value n => cases h; exact sendShort_of_legal hw _ _ s
  | sendnec value n => cases h; exact sendShort_of_legal hw _ _ s
  | sendrc5 value n => cases h; exact sendShort_of_legal hw _ _ s
  | sendrc6 value n => cases h; exact sendShort_of_legal hw _ _ s

/-- Settles O41: acceptance is `exec_of_sendOf`; the first `k` pulses and the whole list run by `steps_startTransmit` and
`steps_startTransmit_finish`; the gate ends closed because every send command's list ends in a space. -/
theorem sendCommandTransmits : Obligations.SendCommandTransmits := by
  intro i sch ps s hw hsend
  have hexec := exec_of_sendOf hw hsend s
  refine ⟨fun hb => hexec.trans (whenReady_of_busy hb _), fun hb hs =>
    ⟨s.startTransmit sch ps, hexec.trans (whenReady_of_idle hb _), fun k hk => ?_, ?_⟩⟩
  · have hlen : (ps.take k).length = k := List.length_take_of_le hk
    have hrun := steps_startTransmit (ps := ps.take k) (rest := ps.drop k) (hs.mono (by omega)) sch
    rw [List.take_append_drop, hlen] at hrun
    exact ⟨_, hrun, busy_of_status rfl, rfl, rfl, rfl, rfl, rfl, rfl, rfl⟩
  · rw [steps_startTransmit_finish hs, gateAfter_of_sendOf hsend]

end Sys2Proof.Machine

/-! ## The timer commands: SETTIMING and SETFREQ, from their bytes to the programmed registers (41_timer_control.md) -/

namespace Sys2Proof.Machine

/-- Settles O10: the positions are the decoder's row, and a ready block stores both operands by `setIr`. -/
theorem settimingStoresBoth : Obligations.SettimingStoresBoth :=
  ⟨decode_settiming, fun p d _ hb => whenReady_of_idle hb (·.setIr p d)⟩

/-- The frequency as the formulas of R122 (41_timer_control.md) read it, on unbounded integers. -/
theorem freqOf_intCast (fh fl : Byte) : ((freqOf fh fl : Nat) : Int) = 256 * fh.toNat + fl.toNat := by
  simp [freqOf]

/-- SETFREQ writes the two programmed registers and nothing else (R122, 41_timer_control.md). -/
theorem setFreq_frame (clockHz : Nat) (fh fl dp : Byte) (s : State) :
    s.setFreq clockHz fh fl dp =
      { s with irPeriod := (s.setFreq clockHz fh fl dp).irPeriod, irDuty := (s.setFreq clockHz fh fl dp).irDuty } := rfl

/-- Settles O11: the two bytes are what SETFREQ stores; with the frequency read as `freqOf`, the formulas are `timerValue` and
`dutyValue`, whose results `setFreq_irPeriod_toNat` and `setFreq_irDuty_toNat` give where they fit. -/
theorem setfreqStoresFormulas : Obligations.SetfreqStoresFormulas := by
  refine ⟨decode_setfreq, Config.clockHz_pos, fun fh fl dp _ hb => exec_setfreq_of_idle hb fh fl dp, fun clockHz fh fl dp s => ?_⟩
  intro freq tv dv
  have hfreq : freq = freqOf fh fl := (freqOf_intCast fh fl).symm
  have htv : tv = timerValue clockHz (freqOf fh fl) := by rw [timerValue, ← hfreq]
  have hdv : dv = dutyValue (timerValue clockHz (freqOf fh fl)) dp.toNat := by rw [dutyValue, ← htv]
  rw [hfreq, htv, hdv, Int.natCast_ne_zero]
  exact ⟨_, _, setFreq_frame clockHz fh fl dp s, fun hf h0 h255 => setFreq_irPeriod_toNat hf h0 h255 dp s,
    fun hf hdp h0 h255 hd => setFreq_irDuty_toNat hf (BitVec.toNat_ne.mp hdp) h0 h255 hd s⟩

end Sys2Proof.Machine

/-! ## The pulses of a datagram: each of its 64 bits by position, and how long it takes (42_sony_datagram.md) -/

namespace Sys2Proof.Machine

/-! ### Lists put together from pieces of one length -/

/-- Place `j` of piece `i`, where every piece has length `c`. -/
theorem getElem?_flatMap_of_length {α β : Type} {f : α → List β} {c : Nat} (hf : ∀ a, (f a).length = c) (l : List α) (i : Nat)
    {j : Nat} (hj : j < c) : (l.flatMap f)[c * i + j]? = l[i]?.bind fun a => (f a)[j]? := by
  induction l generalizing i with
  | nil => simp
  | cons a l ih =>
    rw [List.flatMap_cons]
    cases i with
    | zero => rw [Nat.mul_zero, Nat.zero_add, List.getElem?_append_left (by rwa [hf])]; rfl
    | succ i =>
      have hpast : c * (i + 1) + j = (f a).length + (c * i + j) := by rw [hf, Nat.mul_succ]; omega
      rw [hpast, List.getElem?_append_right (Nat.le_add_right ..), Nat.add_sub_cancel_left, ih, List.getElem?_cons_succ]

theorem length_flatMap_of_length {α β : Type} {f : α → List β} {c : Nat} (hf : ∀ a, (f a).length = c) (l : List α) :
    (l.flatMap f).length = l.length * c := by
  simp [List.length_flatMap, hf]

/-! ### The bits of an operand, by position and by number of ones -/

/-- The wire order of R54 and R56 (20_memory.md): the bit of weight `i` goes out at position `n - 1 - i`. -/
theorem bitsHighFirst_getElem? {w : Nat} (v : BitVec w) {n i : Nat} (hi : i < n) :
    (bitsHighFirst v n)[n - 1 - i]? = some (v.getLsbD i) := by
  induction n with
  | zero => omega
  | succ n ih =>
    rw [bitsHighFirst]
    obtain rfl | hlt : i = n ∨ i < n := by omega
    · simp
    · rw [show n + 1 - 1 - i = (n - 1 - i) + 1 by omega, List.getElem?_cons_succ, ih hlt]

theorem count_true_bitsHighFirst {w : Nat} (v : BitVec w) (n : Nat) :
    (bitsHighFirst v n).count true = ∑ i ∈ Finset.range n, (v.getLsbD i).toNat := by
  induction n with
  | zero => rfl
  | succ n ih => rw [bitsHighFirst, List.count_cons, ih, Finset.sum_range_succ]; cases v.getLsbD n <;> rfl

@[simp] theorem datagramBits_length (bytes : List Byte) : (datagramBits bytes).length = 8 * bytes.length := by
  rw [datagramBits, length_flatMap_of_length (fun b => bitsHighFirst_length b 8), Nat.mul_comm]

/-- Byte 0 first, bit 7 of each byte first (R54, 20_memory.md). -/
theorem datagramBits_getElem? {bytes : List Byte} {k j : Nat} (hk : k < bytes.length) (hj : j < 8) :
    (datagramBits bytes)[8 * k + (7 - j)]? = some ((bytes.getD k 0#8).getLsbD j) := by
  have hbyte : bytes[k]? = some (bytes.getD k 0#8) := by simp [hk]
  rw [datagramBits, getElem?_flatMap_of_length (fun b => bitsHighFirst_length b 8) bytes k (by omega), hbyte]
  exact bitsHighFirst_getElem? _ hj

theorem count_true_datagramBits (bytes : List Byte) :
    (datagramBits bytes).count true =
      ∑ k ∈ Finset.range bytes.length, ∑ j ∈ Finset.range 8, ((bytes.getD k 0#8).getLsbD j).toNat := by
  induction bytes with
  | nil => rfl
  | cons b bytes ih =>
    have hcons : datagramBits (b :: bytes) = bitsHighFirst b 8 ++ datagramBits bytes := List.flatMap_cons ..
    rw [hcons, List.count_append, count_true_bitsHighFirst, ih, List.length_cons, Finset.sum_range_succ' _ bytes.length, Nat.add_comm]
    rfl

/-! ### The pulses of the bulk form (R140) -/

/-- The duration of a list of bits, where a bit's pulses take a time that depends on its value alone. -/
theorem dur_flatMap_bits (f : Bool → List Pulse) (bits : List Bool) :
    dur (bits.flatMap f) = bits.count true * dur (f true) + bits.count false * dur (f false) := by
  induction bits with
  | nil => simp
  | cons b bits ih =>
    rw [List.flatMap_cons, dur_append, ih]
    cases b <;> simp [Nat.add_mul] <;> omega

theorem pulsesDG_length (c : Cfg) (bytes : List Byte) : (pulsesDG c bytes).length = 16 * bytes.length + 2 := by
  rw [pulsesDG, List.length_append, length_flatMap_of_length (c := 2) (fun _ => rfl), datagramBits_length]
  simp only [List.length_cons, List.length_nil]
  omega

/-- Past the header, pulses `2 * i` and `2 * i + 1` are those of bit `i` in wire order. -/
theorem pulsesDG_getElem? (c : Cfg) {bytes : List Byte} {i : Nat} {b : Bool} (hb : (datagramBits bytes)[i]? = some b) :
    (pulsesDG c bytes)[2 + 2 * i]? = some (.mark (if b then c.dgOneMark else c.dgZeroMark)) ∧
      (pulsesDG c bytes)[3 + 2 * i]? = some (.space c.dgBitSpace) := by
  have hpulse {j : Nat} (hj : j < 2) : (pulsesDG c bytes)[2 * i + j + 2]? = (bitDG c b)[j]? := by
    have hbits := getElem?_flatMap_of_length (f := bitDG c) (fun _ => rfl) (datagramBits bytes) i hj
    rwa [hb] at hbits -- the two pulses of the header are taken off by computation
  rw [Nat.add_comm 2, Nat.add_comm 3]
  exact ⟨hpulse (j := 0) (by decide), hpulse (j := 1) (by decide)⟩

theorem dur_pulsesDG (c : Cfg) (bytes : List Byte) :
    dur (pulsesDG c bytes) = c.dgHdrMark + c.dgHdrSpace + 8 * bytes.length * c.dgBitSpace
      + (datagramBits bytes).count true * c.dgOneMark + (8 * bytes.length - (datagramBits bytes).count true) * c.dgZeroMark := by
  have hlen : (datagramBits bytes).count true + (datagramBits bytes).count false = 8 * bytes.length := by
    rw [List.count_true_add_count_false, datagramBits_length]
  rw [pulsesDG, dur_append, dur_flatMap_bits, ← hlen, Nat.add_sub_cancel_left]
  simp only [bitDG, dur_cons, dur_nil, Pulse.dur, if_true, Bool.false_eq_true, if_false]
  ring

/-- Settles O17: `decode_senddg` places the bytes; a ready block starts the transmission of `pulsesDG`, whose pulses stand at their
places by `pulsesDG_getElem?` and `datagramBits_getElem?`; `steps_startTransmit_finish` runs it, and `gateAfter_of_sendOf` closes
the gate. -/
theorem senddgSendsSixtyFourBits : Obligations.SenddgSendsSixtyFourBits := by
  intro b0 b1 b2 b3 b4 b5 b6 b7 s hb bytes ones
  have hones : (datagramBits bytes).count true = ones := count_true_datagramBits bytes
  refine ⟨decode_senddg b0 b1 b2 b3 b4 b5 b6 b7, pulsesDG Config.cfg bytes, exec_senddg_of_idle hb .., pulsesDG_length .., rfl, rfl,
    fun k j hk hj => pulsesDG_getElem? _ (datagramBits_getElem? hk hj), ?_, fun hs => ?_⟩
  · rw [dur_pulsesDG, hones]; rfl
  · refine ⟨_, steps_startTransmit_finish (ps := pulsesDG Config.cfg bytes) hs .DG, ?_, ?_, rfl, rfl, rfl⟩
    · exact busy_of_status rfl
    · exact (statusWord_gate _ _).trans (gateAfter_of_sendOf (i := .senddg b0 b1 b2 b3 b4 b5 b6 b7) rfl s.gate)

end Sys2Proof.Machine

/-! ## The datagram's checksum and the two templates (44_datagram_framing.md) -/

namespace Sys2Proof.Machine

/-- The seed 0 of R181 (44_datagram_framing.md) adds nothing, so the bytes may be summed from either end. -/
theorem checksum_eq_sum (bytes : List Byte) : checksum bytes = bytes.sum := List.sum_eq_foldl.symm

/-- Discarding the carry out of bit 7 at each addition is one reduction mod 256 of the whole sum (R181, 44_datagram_framing.md). -/
theorem checksum_toNat (bytes : List Byte) : (checksum bytes).toNat = (bytes.map BitVec.toNat).sum % 256 := by
  rw [checksum_eq_sum]
  induction bytes with
  | nil => rfl
  | cons b bytes ih => rw [List.sum_cons, BitVec.toNat_add, ih, List.map_cons, List.sum_cons, Nat.add_mod_mod]

/-- The sum before reduction: at most 255 for each byte. -/
theorem sum_toNat_le (bytes : List Byte) : (bytes.map BitVec.toNat).sum ≤ bytes.length * 255 := by
  have hbyte : ∀ n ∈ bytes.map BitVec.toNat, n ≤ 255 := List.forall_mem_map.mpr fun b _ => Nat.le_of_lt_succ b.isLt
  simpa using List.sum_le_card_nsmul _ _ hbyte

/-- The seven bytes of a datagram that the checksum covers, their sum written out from byte 0. -/
theorem sum_map_toNat_seven (b0 b1 b2 b3 b4 b5 b6 : Byte) :
    ([b0, b1, b2, b3, b4, b5, b6].map BitVec.toNat).sum =
      b0.toNat + b1.toNat + b2.toNat + b3.toNat + b4.toNat + b5.toNat + b6.toNat := by
  simp [Nat.add_assoc]

/-- Settles O55: the seven bytes' instance of `checksum_toNat`, and of the bound 255 for each byte. -/
theorem checksumIsSumModulo : Obligations.ChecksumIsSumModulo := by
  intro b0 b1 b2 b3 b4 b5 b6
  rw [← sum_map_toNat_seven]
  exact ⟨checksum_toNat _, (sum_toNat_le _).trans_eq (by simp)⟩

/-- FWDGEN is sent as the opcode of SENDDG and the generic template (R87, 30_encoding.md). -/
theorem encode_fwdgen (g u op a0 a1 a2 : Byte) : encode (fwdgen g u op a0 a1 a2) = 0x21#8 :: buildGeneric g u op a0 a1 a2 := rfl

/-- FWDSPOT is sent as the opcode of SENDDG and the colorspot template (R87, 30_encoding.md). -/
theorem encode_fwdspot (g pos cmd : Byte) : encode (fwdspot g pos cmd) = 0x21#8 :: buildColorspot g pos cmd := rfl

/-- Settles O56: byte 7 is the template's own checksum, whose sum O55 gives; the worked example is evaluated. -/
theorem genericTemplate : Obligations.GenericTemplate := by
  refine ⟨fun g u op a0 a1 a2 => ⟨checksum [0x55#8, g, u, op, a0, a1, a2], ?_, rfl, rfl, encode_fwdgen ..⟩, by decide⟩
  exact (checksumIsSumModulo ..).1

/-- Settles O57: as O56, where the constant bytes 5 and 6 add 0 to the sum. -/
theorem colorspotTemplate : Obligations.ColorspotTemplate := by
  refine ⟨fun g pos cmd => ⟨checksum [0x55#8, g, 0xFD#8, pos, cmd, 0x00#8, 0x00#8], ?_, rfl, rfl, encode_fwdspot ..⟩, by decide⟩
  exact (checksumIsSumModulo ..).1

end Sys2Proof.Machine

/-! ## No exceptions (60_exceptions.md) -/

namespace Sys2Proof.Machine

/-- R200 (60_exceptions.md) names no cause of an exception, so `Fault` has no constructor. -/
theorem isEmpty_fault : IsEmpty Fault := ⟨fun f => nomatch f⟩

/-- Settles O38: a step that answered a fault would have to name one, and there is none to name. -/
theorem noStepFaults : Obligations.NoStepFaults :=
  ⟨isEmpty_fault, fun _ f _ => isEmpty_fault.false f⟩

end Sys2Proof.Machine

/-! ## Encoding: the decoder forwards, and what is no command (30_encoding.md) -/

namespace Sys2Proof

/-! ### Encoding and decoding, both ways -/

/-- Settles O2: byte operands are read back by position, and a short code's value by `valueOf_bytes`. -/
theorem decodeGivesBackEncoded : Obligations.DecodeGivesBackEncoded := by
  intro i rest
  cases i with
  | senddg b0 b1 b2 b3 b4 b5 b6 b7 => exact decode_senddg ..
  | setfreq fh fl dp => exact decode_setfreq ..
  | sendraw a0 a1 => exact decode_of_opcode .sendraw _
  | carrier en => exact decode_carrier ..
  | settiming p d => exact decode_settiming ..
  | sendsony v n =>
    exact (decode_of_opcode .sendsony _).trans (congrArg (fun w => Decoded.command (.sendsony w n) rest) (valueOf_bytes v))
  | sendnec v n =>
    exact (decode_of_opcode .sendnec _).trans (congrArg (fun w => Decoded.command (.sendnec w n) rest) (valueOf_bytes v))
  | sendrc5 v n =>
    exact (decode_of_opcode .sendrc5 _).trans (congrArg (fun w => Decoded.command (.sendrc5 w n) rest) (valueOf_bytes v))
  | sendrc6 v n =>
    exact (decode_of_opcode .sendrc6 _).trans (congrArg (fun w => Decoded.command (.sendrc6 w n) rest) (valueOf_bytes v))

/-- Settles O3: it is `eq_encode_append_of_decode`. -/
theorem decodedBytesAreItsEncoding : Obligations.DecodedBytesAreItsEncoding :=
  fun _ _ _ h => eq_encode_append_of_decode h

/-! ### No command, and no whole command -/

theorem assemble_ne_notACommand (o : Opcode) (operands : List Byte) : assemble o operands ≠ .notACommand := by
  unfold assemble
  split <;> nofun

theorem opcodeOf_eq_none_iff (c0 : Byte) : opcodeOf c0 = none ↔ c0 ∉ opcodeMap.map Opcode.byte := by
  rw [opcodeOf, List.find?_eq_none]
  simp only [beq_iff_eq, List.mem_map, not_exists, not_and]

/-- Settles O5: only the opcode map answers `notACommand`, where it holds no row for the first byte. -/
theorem otherFirstBytesAreNoCommand : Obligations.OtherFirstBytesAreNoCommand := by
  intro c0 operands
  refine Iff.trans ?_ (opcodeOf_eq_none_iff c0)
  cases ho : opcodeOf c0 with
  | none => simp [decode, ho]
  | some o => simp [decode, ho, assemble_ne_notACommand]

theorem assemble_of_short {o : Opcode} {operands : List Byte} (h : operands.length < o.operandBytes) :
    assemble o operands = .incomplete := by
  unfold assemble
  split
  case h_10 => rfl
  all_goals
    simp only [Opcode.operandBytes, List.length_cons] at h
    omega

theorem exists_eq_cons_of_succ_le_length {α : Type} {n : Nat} {l : List α} (h : n + 1 ≤ l.length) :
    ∃ a t, l = a :: t ∧ n ≤ t.length := by
  cases l with
  | nil => cases h
  | cons a t => exact ⟨a, t, rfl, Nat.le_of_succ_le_succ h⟩

theorem assemble_of_enough {o : Opcode} {operands : List Byte} (h : o.operandBytes ≤ operands.length) :
    ∃ i, assemble o operands = .command i (operands.drop o.operandBytes) := by
  cases o
  all_goals
    repeat -- one operand byte each time
      replace h := exists_eq_cons_of_succ_le_length h
      obtain ⟨_, operands, rfl, h⟩ := h
    exact ⟨_, rfl⟩

/-- Settles O6: the nine rows are those of the opcode map, with its numbers of operand bytes. -/
theorem shortStringIsNoCommand : Obligations.ShortStringIsNoCommand := by
  refine ⟨rfl, fun row hrow operands => ?_⟩
  obtain ⟨o, -, rfl⟩ : ∃ o ∈ opcodeMap, (o.byte, o.operandBytes) = row := List.mem_map.mp hrow
  rw [decode_of_opcode]
  exact ⟨assemble_of_short, assemble_of_enough⟩

/-- Settles O1: the decoder is evaluated on the ten words. -/
theorem specWordsDecode : Obligations.SpecWordsDecode := by
  unfold Obligations.SpecWordsDecode
  decide

end Sys2Proof

/-! ## What a command does when it is issued: accepted, held or refused (40_pulse_primitives.md, section 4) -/

namespace Sys2Proof.Machine

/-! ### Accepted, held or refused -/

/-- A command with no reserved operand has one effect, which waits for BUSY = 0 (R53, 20_memory.md). -/
theorem exec_eq_whenReady {i : Instr} (hw : i.wellFormed = true) : ∃ f, ∀ s, exec i s = whenReady s f := by
  cases i with
  | senddg b0 b1 b2 b3 b4 b5 b6 b7 => exact ⟨_, fun _ => rfl⟩
  | setfreq fh fl dp => exact ⟨_, fun _ => rfl⟩
  | sendraw a0 a1 => exact ⟨_, fun _ => rfl⟩
  | carrier en => exact ⟨_, fun _ => rfl⟩
  | settiming p d => exact ⟨_, fun _ => rfl⟩
  | sendsony v n => exact ⟨_, sendShort_of_legal hw _ _⟩
  | sendnec v n => exact ⟨_, sendShort_of_legal hw _ _⟩
  | sendrc5 v n => exact ⟨_, sendShort_of_legal hw _ _⟩
  | sendrc6 v n => exact ⟨_, sendShort_of_legal hw _ _⟩

theorem exec_of_busy {i : Instr} {s : State} (hb : s.busy = true) (hw : i.wellFormed = true) : exec i s = .next s := by
  obtain ⟨f, hf⟩ := exec_eq_whenReady hw
  rw [hf, whenReady_of_busy hb]

/-- Settles O26: it is `exec_of_busy`. -/
theorem commandHeldWhileBusy : Obligations.CommandHeldWhileBusy :=
  fun _ _ hb hw => exec_of_busy hb hw

/-- A command is refused for a reserved operand and for nothing else, whether the block is ready or not (R81, 30_encoding.md). -/
theorem exec_eq_refused_iff (i : Instr) (s : State) (r : Refusal) :
    exec i s = .refused r ↔ i.wellFormed = false ∧ r = .bitCountOutOfRange := by
  cases hw : i.wellFormed with
  | false => simp [exec_of_reserved hw, eq_comm]
  | true =>
    obtain ⟨f, hf⟩ := exec_eq_whenReady hw
    simp [hf, whenReady, ite_eq_iff]

theorem wellFormed_of_exec {i : Instr} {s t : State} (h : exec i s = .next t) : i.wellFormed = true := by
  rw [← Bool.not_eq_false]
  intro hw
  rw [exec_of_reserved hw] at h
  cases h

theorem accepted_of_exec {i : Instr} {s t : State} (hb : s.busy = false) (h : exec i s = .next t) : Accepted s i t := by
  obtain ⟨t', ht', ha⟩ := exec_of_idle (wellFormed_of_exec h) hb
  rw [h] at ht'
  cases ht'
  exact ha

theorem bitCountLegal_eq_false_iff (n : Byte) : bitCountLegal n = false ↔ n.toNat = 0 ∨ 32 < n.toNat := by
  rw [bitCountLegal, decide_eq_false_iff_not]
  omega

/-- Settles O23: a short code's only operand that can be reserved is its bit count. -/
theorem reservedBitCountRefused : Obligations.ReservedBitCountRefused := by
  intro v n s i hi
  have hw : i.wellFormed = bitCountLegal n := by
    simp only [List.mem_cons, List.not_mem_nil, or_false] at hi
    obtain rfl | rfl | rfl | rfl := hi <;> rfl
  rw [exec_eq_refused_iff, hw, bitCountLegal_eq_false_iff]
  exact and_iff_left rfl

/-! ### Frames: what a command leaves unchanged -/

theorem isSend_of_sendOf {c : Cfg} {i : Instr} {x : Scheme × List Pulse} (h : sendOf c i = some x) : i.isSend = true := by
  cases i with
  | setfreq fh fl dp => cases h
  | carrier en => cases h
  | settiming p d => cases h
  | _ => rfl

/-- Settles O16: with BUSY = 1 nothing changes; with BUSY = 0 the three commands write the fields their equations name. -/
theorem configCommandFrame : Obligations.ConfigCommandFrame := by
  intro i s t hi h
  cases hb : s.busy with
  | true =>
    rw [exec_of_busy hb (wellFormed_of_exec h)] at h
    cases h
    simp [hb]
  | false =>
    cases accepted_of_exec hb h with
    | send hsend => simp [isSend_of_sendOf hsend] at hi
    | settiming p d => simp [hb]
    | setfreq fh fl dp => simp [setFreq_eq, State.busy, ← hb]
    | carrierOff => simp [State.carrierOff, hb]
    | carrierOn en hen => simp [State.carrierOn, hb, hen]

/-- Settles O25: a ready block's send command is `startTransmit`. -/
theorem sendCommandFrame : Obligations.SendCommandFrame := by
  intro i s t hi hb h
  cases accepted_of_exec hb h with
  | @send _ sch ps hsend => exact ⟨rfl, rfl, statusWord_gate _ _, rfl, rfl, rfl, rfl, sch, rfl⟩
  | settiming p d => cases hi
  | setfreq fh fl dp => cases hi
  | carrierOff => cases hi
  | carrierOn en hen => cases hi

/-! ### The configuration commands -/

theorem exec_carrier_zero (s : State) : exec (.carrier 0#8) s = whenReady s State.carrierOff := rfl

/-- Settles O14: `carrierOn_eq` and `carrierOff_eq`, with BUSY = 0 in the word of STATUS. -/
theorem carrierSwitchesGate : Obligations.CarrierSwitchesGate := by
  intro s hb
  refine ⟨fun en hen => ?_, ?_⟩
  · rw [exec_carrier_of_ne_zero hen, whenReady_of_idle hb, carrierOn_eq, hb]
  · rw [exec_carrier_zero, whenReady_of_idle hb, carrierOff_eq, hb]

/-- Settles O15: SETTIMING and SETFREQ write what does not depend on the registers they write; CARRIER's second run finds the registers
as the first left them. -/
theorem repeatingLeavesRegisters : Obligations.RepeatingLeavesRegisters := by
  intro s t hb
  refine ⟨fun p d h => ?_, fun fh fl dp h => ?_, fun en h => ?_⟩
  · rw [settimingStoresBoth.2 p d s hb] at h
    cases h
    exact settimingStoresBoth.2 p d _ hb
  · rw [exec_setfreq_of_idle hb] at h
    cases h
    exact exec_setfreq_of_idle (s := s.setFreq _ fh fl dp) hb fh fl dp
  · obtain ⟨hon, hoff⟩ := carrierSwitchesGate s hb
    by_cases hen : en = 0#8
    · subst hen
      rw [hoff] at h
      cases h
      exact ⟨_, rfl, (carrierSwitchesGate _ (busy_of_status rfl)).2⟩
    · rw [hon en hen] at h
      cases h
      exact ⟨_, rfl, (carrierSwitchesGate _ (busy_of_status rfl)).1 en hen⟩

end Sys2Proof.Machine

/-! ## The pulses of the short codes: by position, their number and their duration (42_sony_datagram.md, 43_nec_rc5_rc6.md) -/

namespace Sys2Proof.Machine

/-! ### A list of two-pulse bits between a header and a tail -/

section Framed

variable {α : Type} {f : α → List Pulse} (hf : ∀ a, (f a).length = 2) (hd tl : List Pulse)
include hf

/-- Pulse `j` of bit `i`, after the header. -/
theorem framed_getElem? {l : List α} {i j : Nat} {a : α} (ha : l[i]? = some a) (hj : j < 2) :
    (hd ++ l.flatMap f ++ tl)[2 * i + j + hd.length]? = (f a)[j]? := by
  have hbit := getElem?_flatMap_of_length hf l i hj
  rw [ha, Option.bind_some] at hbit
  obtain ⟨hi, -⟩ := List.getElem?_eq_some_iff.mp ha
  have hlt : 2 * i + j < (l.flatMap f).length := by rw [length_flatMap_of_length hf]; omega
  rw [List.append_assoc, List.getElem?_append_right (Nat.le_add_left ..), Nat.add_sub_cancel, List.getElem?_append_left hlt, hbit]

/-- Pulse `j` of the tail, after `n` bits. -/
theorem framed_getElem?_tail {l : List α} {n : Nat} (hn : l.length = n) (j : Nat) :
    (hd ++ l.flatMap f ++ tl)[2 * n + hd.length + j]? = tl[j]? := by
  have hlen : (hd ++ l.flatMap f).length = 2 * n + hd.length := by
    rw [List.length_append, length_flatMap_of_length hf]; omega
  rw [← hlen, List.getElem?_append_right (Nat.le_add_right ..), Nat.add_sub_cancel_left]

theorem framed_length {l : List α} {n : Nat} (hn : l.length = n) :
    (hd ++ l.flatMap f ++ tl).length = 2 * n + (hd.length + tl.length) := by
  rw [List.length_append, List.length_append, length_flatMap_of_length hf]; omega

end Framed

/-! ### The low bits of a value -/

/-- The wire order of R56 (20_memory.md) from the first transmitted bit on. -/
theorem bitsHighFirst_getElem?_of_lt {w : Nat} (v : BitVec w) {n i : Nat} (hi : i < n) :
    (bitsHighFirst v n)[i]? = some (v.getLsbD (n - 1 - i)) := by
  rw [← bitsHighFirst_getElem? v (show n - 1 - i < n by omega), show n - 1 - (n - 1 - i) = i by omega]

theorem bitsHighFirst_congr {w : Nat} {v v' : BitVec w} {n : Nat} (h : ∀ k < n, v.getLsbD k = v'.getLsbD k) :
    bitsHighFirst v n = bitsHighFirst v' n := by
  induction n with
  | zero => rfl
  | succ n ih => rw [bitsHighFirst, bitsHighFirst, h n (Nat.lt_succ_self n), ih fun k hk => h k (Nat.lt_succ_of_lt hk)]

/-- The duration of `n` bits whose pulses take `a` and then `o` for a one, `z` for a zero. -/
theorem dur_bits {f : Bool → List Pulse} {a o z : Nat} (ho : dur (f true) = a + o) (hz : dur (f false) = a + z)
    {w : Nat} (v : BitVec w) (n : Nat) :
    dur ((bitsHighFirst v n).flatMap f) = n * a + (∑ i ∈ Finset.range n, (v.getLsbD i).toNat) * o
      + (n - ∑ i ∈ Finset.range n, (v.getLsbD i).toNat) * z := by
  have hlen : (bitsHighFirst v n).count true + (bitsHighFirst v n).count false = n := by
    rw [List.count_true_add_count_false, bitsHighFirst_length]
  have hzeros : n - (bitsHighFirst v n).count true = (bitsHighFirst v n).count false := by omega
  have ha : n * a = (bitsHighFirst v n).count true * a + (bitsHighFirst v n).count false * a := by rw [← Nat.add_mul, hlen]
  rw [dur_flatMap_bits, ho, hz, ← count_true_bitsHighFirst, hzeros, ha]
  ring

/-! ### The acceptance of a short code -/

theorem bitCountLegal_of_le {n : Byte} (h1 : 1 ≤ n.toNat) (h32 : n.toNat ≤ 32) : bitCountLegal n = true :=
  decide_eq_true ⟨h1, h32⟩

theorem exec_send_of_idle {i : Instr} {sch : Scheme} {ps : List Pulse} {s : State} (hb : s.busy = false) (hw : i.wellFormed = true)
    (h : sendOf Config.cfg i = some (sch, ps)) : exec i s = .next (s.startTransmit sch ps) :=
  (exec_of_sendOf hw h s).trans (whenReady_of_idle hb _)

theorem sendShort_congr {pulses pulses' : Nat → List Pulse} {n : Byte} (h : pulses n.toNat = pulses' n.toNat) (sch : Scheme)
    (s : State) : sendShort sch pulses n s = sendShort sch pulses' n s := by
  simp only [sendShort, h]

/-- Settles O24: every scheme reads the value through `bitsHighFirst`. -/
theorem highBitsIgnored : Obligations.HighBitsIgnored := by
  intro v w n s h
  have hbits := bitsHighFirst_congr h
  exact ⟨sendShort_congr (by simp only [pulsesSony, hbits]) _ s, sendShort_congr (by simp only [pulsesNec, hbits]) _ s,
    sendShort_congr (by simp only [pulsesRc5, hbits]) _ s, sendShort_congr (by simp only [pulsesRc6, hbits]) _ s⟩

/-! ### The short Sony code (R142) -/

theorem pulsesSony_length (c : Cfg) (v : Code) (n : Nat) : (pulsesSony c v n).length = 2 * n + 3 :=
  framed_length (fun _ => rfl) _ _ (bitsHighFirst_length v n)

theorem pulsesSony_getElem? (c : Cfg) (v : Code) {n i j : Nat} (hi : i < n) (hj : j < 2) :
    (pulsesSony c v n)[2 * i + j + 2]? = (bitSony c (v.getLsbD (n - 1 - i)))[j]? :=
  framed_getElem? (fun _ => rfl) [_, _] _ (bitsHighFirst_getElem?_of_lt v hi) hj

theorem dur_pulsesSony (c : Cfg) (v : Code) (n : Nat) :
    dur (pulsesSony c v n) = c.sonyHdrMark + c.sonyHdrSpace + n * c.sonyBitSpace
      + (∑ i ∈ Finset.range n, (v.getLsbD i).toNat) * c.sonyOneMark
      + (n - ∑ i ∈ Finset.range n, (v.getLsbD i).toNat) * c.sonyZeroMark := by
  rw [pulsesSony, dur_append, dur_append, dur_bits (f := bitSony c) (a := c.sonyBitSpace) (o := c.sonyOneMark) (z := c.sonyZeroMark)
    (Nat.add_comm ..) (Nat.add_comm ..)]
  simp only [dur_cons, dur_nil, Pulse.dur]
  omega

/-- Settles O18: header and tail are `pulsesSony`'s own, the bits between stand by `pulsesSony_getElem?`. -/
theorem sendsonyPulses : Obligations.SendsonyPulses := by
  intro v n s hb h1 h32 c ones
  refine ⟨pulsesSony c v n.toNat, exec_send_of_idle hb (bitCountLegal_of_le h1 h32) rfl, pulsesSony_length .., rfl, rfl,
    fun i hi => ?_, framed_getElem?_tail (fun _ => rfl) [_, _] _ (bitsHighFirst_length ..) 0, dur_pulsesSony ..⟩
  rw [Nat.add_comm 2, Nat.add_comm 3]
  exact ⟨pulsesSony_getElem? c v hi (j := 0) (by decide), pulsesSony_getElem? c v hi (j := 1) (by decide)⟩

/-- Settles O19: both start the transmission of `pulsesSony` of the code, at `n = 12`. -/
theorem sendrawIsSendsonyTwelve : Obligations.SendrawIsSendsonyTwelve := by
  intro a0 a1 s hb
  exact ⟨_, exec_send_of_idle hb rfl rfl, exec_send_of_idle hb rfl rfl, pulsesSony_length .., rfl⟩

/-! ### NEC (R160) -/

theorem pulsesNec_length (c : Cfg) (v : Code) (n : Nat) : (pulsesNec c v n).length = 2 * n + 4 :=
  framed_length (fun _ => rfl) _ _ (bitsHighFirst_length v n)

theorem pulsesNec_getElem? (c : Cfg) (v : Code) {n i j : Nat} (hi : i < n) (hj : j < 2) :
    (pulsesNec c v n)[2 * i + j + 2]? = (bitNec c (v.getLsbD (n - 1 - i)))[j]? :=
  framed_getElem? (fun _ => rfl) [_, _] _ (bitsHighFirst_getElem?_of_lt v hi) hj

theorem dur_pulsesNec (c : Cfg) (v : Code) (n : Nat) :
    dur (pulsesNec c v n) = c.necHdrMark + c.necHdrSpace + (n + 1) * c.necBitMark
      + (∑ i ∈ Finset.range n, (v.getLsbD i).toNat) * c.necOneSpace
      + (n - ∑ i ∈ Finset.range n, (v.getLsbD i).toNat) * c.necZeroSpace := by
  rw [pulsesNec, dur_append, dur_append, Nat.add_one_mul,
    dur_bits (f := bitNec c) (a := c.necBitMark) (o := c.necOneSpace) (z := c.necZeroSpace) rfl rfl]
  simp only [dur_cons, dur_nil, Pulse.dur]
  omega

/-- Settles O20: header and tail are `pulsesNec`'s own, the bits between stand by `pulsesNec_getElem?`. -/
theorem sendnecPulses : Obligations.SendnecPulses := by
  intro v n s hb h1 h32 c ones
  have htail (j : Nat) : (pulsesNec c v n.toNat)[2 * n.toNat + 2 + j]? = [Pulse.mark c.necBitMark, .space 0][j]? :=
    framed_getElem?_tail (fun _ => rfl) [_, _] _ (bitsHighFirst_length ..) j
  refine ⟨pulsesNec c v n.toNat, exec_send_of_idle hb (bitCountLegal_of_le h1 h32) rfl, pulsesNec_length .., rfl, rfl,
    fun i hi => ?_, htail 0, htail 1, dur_pulsesNec ..⟩
  rw [Nat.add_comm 2, Nat.add_comm 3]
  exact ⟨pulsesNec_getElem? c v hi (j := 0) (by decide), pulsesNec_getElem? c v hi (j := 1) (by decide)⟩

/-! ### RC5 (R162) -/

theorem bitRc5_length (c : Cfg) (b : Bool) : (bitRc5 c b).length = 2 := by cases b <;> rfl

theorem pulsesRc5_length (c : Cfg) (v : Code) (n : Nat) : (pulsesRc5 c v n).length = 2 * n + 4 :=
  framed_length (bitRc5_length c) _ _ (bitsHighFirst_length v n)

theorem pulsesRc5_getElem? (c : Cfg) (v : Code) {n i j : Nat} (hi : i < n) (hj : j < 2) :
    (pulsesRc5 c v n)[2 * i + j + 3]? = (bitRc5 c (v.getLsbD (n - 1 - i)))[j]? :=
  framed_getElem? (bitRc5_length c) [_, _, _] _ (bitsHighFirst_getElem?_of_lt v hi) hj

/-- Every bit of RC5 takes two half-bit times, whatever it is. -/
theorem dur_pulsesRc5 (c : Cfg) (v : Code) (n : Nat) : dur (pulsesRc5 c v n) = (2 * n + 3) * c.rc5T1 := by
  rw [pulsesRc5, dur_append, dur_append,
    dur_bits (f := bitRc5 c) (a := 2 * c.rc5T1) (o := 0) (z := 0) (Nat.two_mul _).symm (Nat.two_mul _).symm]
  simp only [dur_cons, dur_nil, Pulse.dur]
  ring

/-- Settles O21: header and tail are `pulsesRc5`'s own, the bits between stand by `pulsesRc5_getElem?`. -/
theorem sendrcFivePulses : Obligations.SendrcFivePulses := by
  intro v n s hb h1 h32 t1
  refine ⟨pulsesRc5 Config.cfg v n.toNat, exec_send_of_idle hb (bitCountLegal_of_le h1 h32) rfl, pulsesRc5_length .., rfl, rfl, rfl,
    fun i hi => ?_, framed_getElem?_tail (bitRc5_length _) [_, _, _] _ (bitsHighFirst_length ..) 0, dur_pulsesRc5 ..⟩
  rw [Nat.add_comm 3, Nat.add_comm 4, pulsesRc5_getElem? _ v hi (j := 0) (by decide),
    pulsesRc5_getElem? _ v hi (j := 1) (by decide)]
  exact ⟨fun hbit => by rw [hbit]; exact ⟨rfl, rfl⟩, fun hbit => by rw [hbit]; exact ⟨rfl, rfl⟩⟩

/-! ### RC6 (R164) -/

theorem bitRc6_length (c : Cfg) (k : Nat) (b : Bool) : (bitRc6 c k b).length = 2 := by cases b <;> rfl

/-- The bits of RC6, each with its position. -/
theorem bitsRc6_eq_flatMap (c : Cfg) (k : Nat) (bits : List Bool) :
    bitsRc6 c k bits = (bits.zipIdx k).flatMap fun p => bitRc6 c p.2 p.1 := by
  induction bits generalizing k with
  | nil => rfl
  | cons b bits ih => rw [bitsRc6, ih, List.zipIdx_cons, List.flatMap_cons]

theorem pulsesRc6_length (c : Cfg) (v : Code) (n : Nat) : (pulsesRc6 c v n).length = 2 * n + 5 := by
  rw [pulsesRc6, bitsRc6_eq_flatMap]
  exact framed_length (fun p => bitRc6_length c p.2 p.1) _ _ (List.length_zipIdx.trans (bitsHighFirst_length v n))

theorem pulsesRc6_getElem? (c : Cfg) (v : Code) {n k j : Nat} (hk : k < n) (hj : j < 2) :
    (pulsesRc6 c v n)[2 * k + j + 4]? = (bitRc6 c k (v.getLsbD (n - 1 - k)))[j]? := by
  have hbit : ((bitsHighFirst v n).zipIdx 0)[k]? = some (v.getLsbD (n - 1 - k), k) := by
    rw [List.getElem?_zipIdx, bitsHighFirst_getElem?_of_lt v hk, Option.map_some, Nat.zero_add]
  rw [pulsesRc6, bitsRc6_eq_flatMap]
  exact framed_getElem? (fun p => bitRc6_length c p.2 p.1) [_, _, _, _] _ hbit hj

theorem pulsesRc6_getElem?_last (c : Cfg) (v : Code) (n : Nat) : (pulsesRc6 c v n)[2 * n + 4]? = some (.space 0) := by
  rw [pulsesRc6, bitsRc6_eq_flatMap]
  exact framed_getElem?_tail (fun p => bitRc6_length c p.2 p.1) [_, _, _, _] [_]
    (List.length_zipIdx.trans (bitsHighFirst_length v n)) 0

/-- The bits from position `k` on take two half-bit times each, and two more where position 3 is among them. -/
theorem dur_bitsRc6 (c : Cfg) (k : Nat) (bits : List Bool) :
    dur (bitsRc6 c k bits) = 2 * c.rc6T1 * (bits.length + if k ≤ 3 ∧ 3 < k + bits.length then 1 else 0) := by
  induction bits generalizing k with
  | nil => simp [bitsRc6]
  | cons b bits ih =>
    have hbit : dur (bitRc6 c k b) = 2 * halfRc6 c k := by cases b <;> simp [bitRc6, Pulse.dur, Nat.two_mul]
    have hhalf : halfRc6 c k = c.rc6T1 * (1 + if k = 3 then 1 else 0) := by rw [halfRc6]; split <;> ring
    have hcount : (1 + if k = 3 then 1 else 0) + (bits.length + if k + 1 ≤ 3 ∧ 3 < k + 1 + bits.length then 1 else 0)
        = bits.length + 1 + if k ≤ 3 ∧ 3 < k + (bits.length + 1) then 1 else 0 := by split_ifs <;> omega
    rw [bitsRc6, dur_append, hbit, ih, hhalf, List.length_cons, ← hcount]
    ring

theorem dur_pulsesRc6 (c : Cfg) (v : Code) (n : Nat) :
    dur (pulsesRc6 c v n) =
      c.rc6HdrMark + c.rc6HdrSpace + 2 * c.rc6T1 + 2 * c.rc6T1 * (n + if 4 ≤ n then 1 else 0) := by
  have hpos : (0 ≤ 3 ∧ 3 < 0 + n) ↔ 4 ≤ n := by omega
  rw [pulsesRc6, dur_append, dur_append, dur_bitsRc6, bitsHighFirst_length]
  simp only [dur_cons, dur_nil, Pulse.dur, hpos]
  omega

/-- Settles O22: header and tail are `pulsesRc6`'s own, the bits between stand by `pulsesRc6_getElem?`. -/
theorem sendrcSixPulses : Obligations.SendrcSixPulses := by
  intro v n s hb h1 h32 c
  refine ⟨pulsesRc6 c v n.toNat, exec_send_of_idle hb (bitCountLegal_of_le h1 h32) rfl, pulsesRc6_length .., rfl, rfl, rfl, rfl,
    fun k hk => ?_, pulsesRc6_getElem?_last .., dur_pulsesRc6 ..⟩
  rw [Nat.add_comm 4, Nat.add_comm 5, pulsesRc6_getElem? _ v hk (j := 0) (by decide),
    pulsesRc6_getElem? _ v hk (j := 1) (by decide)]
  exact ⟨fun hbit => by rw [hbit]; exact ⟨rfl, rfl⟩, fun hbit => by rw [hbit]; exact ⟨rfl, rfl⟩⟩

end Sys2Proof.Machine

/-! ## The step relation: each kind of step, and which are refused (40_pulse_primitives.md, 70_reset_and_hazards.md) -/

namespace Sys2Proof.Machine

/-! ### The steps of a ready block -/

theorem step_of_command {s : State} {i : Instr} {rest : List Byte} (hr : s.rst = false) (hb : s.busy = false)
    (hd : decode s.port = .command i rest) : step s = exec i (s.sampleRst.setPort rest) := by
  rw [step_of_idle hr hb, issue, sampleRst_port, hd]

theorem step_of_incomplete {s : State} (hr : s.rst = false) (hb : s.busy = false) (hd : decode s.port = .incomplete) :
    step s = .next s.sampleRst := by
  rw [step_of_idle hr hb, issue, sampleRst_port, hd]

theorem step_of_notACommand {s : State} (hr : s.rst = false) (hb : s.busy = false) (hd : decode s.port = .notACommand) :
    step s = .refused .notAnEncoderCommand := by
  rw [step_of_idle hr hb, issue, sampleRst_port, hd]

/-- Settles O29: it is `step_of_command`. -/
theorem stepRunsDecodedCommand : Obligations.StepRunsDecodedCommand :=
  fun _ _ _ hr hb hd => step_of_command hr hb hd

/-- Settles O36: it is `step_of_incomplete`. -/
theorem idleStepChangesNothing : Obligations.IdleStepChangesNothing :=
  fun _ hr hb hd => step_of_incomplete hr hb hd

/-- Settles O33: it is `step_of_queue_empty`. -/
theorem finishEndsTransmission : Obligations.FinishEndsTransmission :=
  fun _ hr hb hq => step_of_queue_empty hr hb hq

/-- Settles O34: the step is `resetBlock`, whose word of STATUS is zero. -/
theorem resetStepFromEveryState : Obligations.ResetStepFromEveryState :=
  fun _ hr => step_of_rst hr

/-- Settles O35: the fields of `State.reset`, evaluated. -/
theorem resetStateValues : Obligations.ResetStateValues :=
  ⟨rfl, rfl, rfl, rfl, rfl, rfl⟩

/-- Settles O37: a reset and a busy block's step answer a next state; a ready block's step is decided by what the port decodes to, and a
command's refusal by `exec_eq_refused_iff`. -/
theorem stepRefusesExactly : Obligations.StepRefusesExactly := by
  intro s r
  cases hr : s.rst with
  | true => simp [step_of_rst hr]
  | false =>
    cases hb : s.busy with
    | true => simp [step_of_busy hr hb]
    | false =>
      cases hd : decode s.port with
      | incomplete => simp [step_of_incomplete hr hb hd]
      | notACommand => simpa [step_of_notACommand hr hb hd] using eq_comm
      | command i rest => simp [step_of_command hr hb hd, exec_eq_refused_iff]

/-! ### The instruction a program places (log 12) -/

theorem bytesOfWord_length (nbits w : Nat) :
    (bytesOfWord nbits w).length = commandLength (BitVec.ofNat 8 (w % 2 ^ nbits)) := by
  simp [bytesOfWord]

theorem bytesOfWord_head {nbits w : Nat} {c0 : Byte} {operands : List Byte} (h : bytesOfWord nbits w = c0 :: operands) :
    c0 = BitVec.ofNat 8 (w % 2 ^ nbits) := by
  have hzero : (bytesOfWord nbits w)[0]? = some c0 := by rw [h, List.getElem?_cons_zero]
  simp only [bytesOfWord, List.getElem?_map, Option.map_eq_some_iff] at hzero
  obtain ⟨k, hk, rfl⟩ := hzero
  obtain ⟨-, rfl⟩ := List.getElem?_eq_some_iff.mp hk
  simp

/-- The word holds the command's own bytes and none after them. -/
theorem decode_bytesOfWord {nbits w : Nat} {i : Instr} (h : decodeTableWord nbits w = some i) :
    decode (bytesOfWord nbits w) = .command i [] := by
  rw [decodeTableWord] at h
  cases hd : decode (bytesOfWord nbits w) with
  | incomplete => simp [hd] at h
  | notACommand => simp [hd] at h
  | command i' rest =>
    obtain rfl : i' = i := by simpa [hd] using h
    obtain ⟨operands, henc, hlen⟩ := Laws.Encoded.all i'
    have hbytes := eq_encode_append_of_decode hd
    rw [henc, List.cons_append] at hbytes
    have htotal := bytesOfWord_length nbits w
    rw [← bytesOfWord_head hbytes, commandLength_byte, hbytes, List.length_cons, List.length_append] at htotal
    rw [List.eq_nil_of_length_eq_zero (show rest.length = 0 by omega)]

/-- Settles O30: the placed bytes decode to the command and leave nothing at the port. -/
theorem placedInstructionRuns : Obligations.PlacedInstructionRuns := by
  intro s nbits w i h
  exact step_of_command (s := s.withFetchWord nbits w) rfl (statusWord_busy _ _) (decode_bytesOfWord h)

end Sys2Proof.Machine

/-! ## The invariant: it holds after reset and every step keeps it (10_state.md, 40_pulse_primitives.md) -/

namespace Sys2Proof.Machine

/-! ### A send command's pulse list -/

theorem getLast?_of_gateAfter {ps : List Pulse} (h : gateAfter true ps = false) : ∃ d, ps.getLast? = some (.space d) := by
  obtain rfl | ⟨qs, e, rfl⟩ := ps.eq_nil_or_concat
  · cases h
  · cases e with
    | mark d => simp [Pulse.isMark] at h
    | space d => exact ⟨d, by simp⟩

theorem le_of_bitCountLegal {n : Byte} (h : bitCountLegal n = true) : n.toNat ≤ 32 :=
  (of_decide_eq_true h).2

/-- The longest list is that of SENDDG (R28, 10_state.md). -/
theorem length_le_of_sendOf {c : Cfg} {i : Instr} {sch : Scheme} {ps : List Pulse} (hw : i.wellFormed = true)
    (h : sendOf c i = some (sch, ps)) : ps.length ≤ 130 := by
  cases i with
  | senddg b0 b1 b2 b3 b4 b5 b6 b7 => cases h; rw [pulsesDG_length]; exact le_rfl
  | setfreq fh fl dp => cases h
  | sendraw a0 a1 => cases h; rw [pulsesSony_length]; decide
  | carrier en => cases h
  | settiming p d => cases h
  | sendsony v n => cases h; have hn := le_of_bitCountLegal hw; rw [pulsesSony_length]; omega
  | sendnec v n => cases h; have hn := le_of_bitCountLegal hw; rw [pulsesNec_length]; omega
  | sendrc5 v n => cases h; have hn := le_of_bitCountLegal hw; rw [pulsesRc5_length]; omega
  | sendrc6 v n => cases h; have hn := le_of_bitCountLegal hw; rw [pulsesRc6_length]; omega

/-- Settles O28: the lists close the gate whatever it was, so they end in a space. -/
theorem pulseListsEndInSpace : Obligations.PulseListsEndInSpace :=
  fun _ _ _ _ hw h => ⟨getLast?_of_gateAfter (gateAfter_of_sendOf h true), length_le_of_sendOf hw h, gateAfter_of_sendOf h⟩

/-! ### Each kind of step keeps the invariant -/

@[simp] theorem perform_gate (s : State) (e : Pulse) : (s.perform e).gate = e.isMark := by
  rw [perform_eq]; exact statusWord_gate _ _

@[simp] theorem perform_status (s : State) (e : Pulse) : (s.perform e).status = statusWord e.isMark s.busy := by rw [perform_eq]
@[simp] theorem perform_now (s : State) (e : Pulse) : (s.perform e).now = s.now + e.dur := by rw [perform_eq]
@[simp] theorem perform_actPeriod (s : State) (e : Pulse) : (s.perform e).actPeriod = s.actPeriod := by rw [perform_eq]
@[simp] theorem perform_actDuty (s : State) (e : Pulse) : (s.perform e).actDuty = s.actDuty := by rw [perform_eq]

/-- What an observer learns from a pulse (R33, 10_state.md). -/
@[simp] theorem Observed.read_pulse (o : Observed) (e : Pulse) :
    o.read e.event =
      { o with gate := e.isMark, time := o.time + e.dur, wellFormed := o.wellFormed && o.transmission.isSome } := by
  cases e <;> rfl

/-- A state that differs only in what the invariant does not mention, the inputs, the programmed registers and the draws, meets it too. -/
theorem State.Inv.of_unmentioned {s : State} (h : s.Inv) (p d : Byte) (bytes : List Byte) (line : List Bool) (n : Nat) :
    State.Inv { s with irPeriod := p, irDuty := d, port := bytes, rstLine := line, draws := n } :=
  { h with }

theorem gate_of_status {s : State} {g b : Bool} (h : s.status = statusWord g b) : s.gate = g := by
  rw [State.gate, h, statusWord_gate]

@[simp] theorem resetBlock_gate (s : State) : s.resetBlock.gate = false := gate_of_status rfl
@[simp] theorem resetBlock_busy (s : State) : s.resetBlock.busy = false := busy_of_status rfl
@[simp] theorem resetBlock_trace (s : State) : s.resetBlock.trace = s.trace ++ [.reset] := rfl
@[simp] theorem resetBlock_now (s : State) : s.resetBlock.now = 0 := rfl

/-- Reading a trace to which RESET is appended starts the observer anew. -/
theorem State.Inv.resetBlock {s : State} (h : s.Inv) : s.resetBlock.Inv where
  statusReserved := statusWord_reserved _ _
  idleQueueEmpty _ := rfl
  queueBounded := Nat.zero_le _
  endsInSpace hb := by simp at hb
  traceWellFormed := by simp [Observed.read, h.traceWellFormed]
  busyIsOpen := by simp [Observed.read]
  latchedHeld sch p d ho := by simp [Observed.read] at ho
  gateObserved := by simp [Observed.read]
  nowObserved := by simp [Observed.read]

theorem State.Inv.perform {s : State} {e : Pulse} {rest : List Pulse} (h : s.Inv) (hb : s.busy = true) (hq : s.q = e :: rest) :
    ((s.setQ rest).perform e).Inv where
  statusReserved := by simp
  idleQueueEmpty hi := by simp [hb] at hi
  queueBounded := by
    have hlen := h.queueBounded
    rw [hq, List.length_cons] at hlen
    simpa using Nat.le_of_succ_le hlen
  endsInSpace _ := by simpa [hq] using h.endsInSpace hb
  traceWellFormed := by simp [h.traceWellFormed, h.busyIsOpen, hb]
  busyIsOpen := by simp [h.busyIsOpen]
  latchedHeld sch p d ho := by simpa using h.latchedHeld sch p d (by simpa using ho)
  gateObserved := by simp
  nowObserved := by simp [h.nowObserved]

/-- The end of a transmission finds the gate closed (R107, 40_pulse_primitives.md). -/
theorem State.Inv.finish {s : State} (h : s.Inv) (hb : s.busy = true) (hq : s.q = []) : s.finish.Inv where
  statusReserved := by simp [State.finish]
  idleQueueEmpty _ := hq
  queueBounded := h.queueBounded
  endsInSpace hi := by simp [State.finish] at hi
  traceWellFormed := by
    have hgate : s.gate = false := by simpa [hq] using h.endsInSpace hb
    simp [State.finish, Observed.read, h.traceWellFormed, h.busyIsOpen, h.gateObserved, hb, hgate]
  busyIsOpen := by simp [State.finish, Observed.read]
  latchedHeld sch p d ho := by simp [State.finish, Observed.read] at ho
  gateObserved := by simp [State.finish, Observed.read, h.gateObserved]
  nowObserved := by simp [State.finish, Observed.read, h.nowObserved]

theorem State.Inv.transmission_eq_none {s : State} (h : s.Inv) (hb : s.busy = false) : (observe s.trace).transmission = none := by
  simpa [hb] using h.busyIsOpen

/-- While no transmission is open the active carrier values may change. -/
theorem State.Inv.latchCarrier {s : State} (h : s.Inv) (hb : s.busy = false) : s.latchCarrier.Inv :=
  { h with latchedHeld := fun sch p d ho => by simp [h.transmission_eq_none hb] at ho }

theorem State.Inv.startTransmit {s : State} {sch : Scheme} {ps : List Pulse} (h : s.Inv) (hb : s.busy = false)
    (hlen : ps.length ≤ 130) (hgate : gateAfter s.gate ps = false) : (s.startTransmit sch ps).Inv where
  statusReserved := by simp [State.startTransmit]
  idleQueueEmpty hi := by simp [State.startTransmit] at hi
  queueBounded := hlen
  endsInSpace _ := by simpa [State.startTransmit] using hgate
  traceWellFormed := by simp [State.startTransmit, Observed.read, h.traceWellFormed, h.transmission_eq_none hb]
  busyIsOpen := by simp [State.startTransmit, Observed.read]
  latchedHeld sch' p d ho := by
    simp only [State.startTransmit, emit_trace, setQ_trace, setBusy_trace, latchCarrier_trace, observe_append, Observed.read,
      Option.some.injEq, Prod.mk.injEq] at ho
    exact ho.2
  gateObserved := by simp [State.startTransmit, Observed.read, h.gateObserved]
  nowObserved := by simp [State.startTransmit, Observed.read, h.nowObserved]

/-- CARRIER drives the gate while no transmission is open. -/
theorem State.Inv.driveGate {s : State} (h : s.Inv) (hb : s.busy = false) (on : Bool) (p d : Byte) :
    ((s.setGate on).emit (.carrier on p d)).Inv where
  statusReserved := by simp
  idleQueueEmpty _ := h.idleQueueEmpty hb
  queueBounded := h.queueBounded
  endsInSpace hi := by simp [hb] at hi
  traceWellFormed := by simp [Observed.read, h.traceWellFormed, h.transmission_eq_none hb]
  busyIsOpen := by simp [Observed.read, h.busyIsOpen]
  latchedHeld sch p' d' ho := by simp [Observed.read, h.transmission_eq_none hb] at ho
  gateObserved := by simp [Observed.read]
  nowObserved := by simp [Observed.read, h.nowObserved]

theorem Accepted.inv {s t : State} {i : Instr} (ha : Accepted s i t) (h : s.Inv) (hb : s.busy = false) (hw : i.wellFormed = true) :
    t.Inv := by
  cases ha with
  | send hsend => exact h.startTransmit hb (length_le_of_sendOf hw hsend) (gateAfter_of_sendOf hsend _)
  | settiming p d => exact h.of_unmentioned ..
  | setfreq fh fl dp => exact h.of_unmentioned ..
  | carrierOff => exact h.driveGate hb false _ _
  | carrierOn en hen => exact (h.latchCarrier hb).driveGate hb true _ _

/-- Settles O39: each kind of step keeps it, on the state whose sample of `rst` has been taken. -/
theorem stepKeepsInvariant : Obligations.StepKeepsInvariant := by
  intro s t h hstep
  have hsample : s.sampleRst.Inv := h.of_unmentioned ..
  cases step_cases hstep with
  | reset hr => exact hsample.resetBlock
  | pulse hr hb hq => exact hsample.perform hb hq
  | finish hr hb hq => exact hsample.finish hb hq
  | idle hr hb hd => exact hsample
  | issue hr hb hd hw ha => exact ha.inv (hsample.of_unmentioned ..) hb hw

/-- Settles O40: `State.reset` is ready, with the trace `[RESET]`. -/
theorem resetMeetsInvariant : Obligations.ResetMeetsInvariant where
  statusReserved := rfl
  idleQueueEmpty _ := rfl
  queueBounded := Nat.zero_le _
  endsInSpace hb := by cases hb
  traceWellFormed := rfl
  busyIsOpen := rfl
  latchedHeld sch p d ho := by cases ho
  gateObserved := rfl
  nowObserved := rfl

end Sys2Proof.Machine

/-! ## Transmissions as a whole: the big step, a reset in the middle, and the end (40_pulse_primitives.md, 70_reset_and_hazards.md) -/

namespace Sys2Proof.Machine

theorem transmit_eq (sch : Scheme) (ps : List Pulse) (s : State) :
    s.transmit sch ps =
      { s with actPeriod := s.irPeriod, actDuty := s.irDuty, status := statusWord (gateAfter s.gate ps) false,
               trace := s.trace ++ [.txstart sch s.irPeriod s.irDuty] ++ ps.map Pulse.event ++ [.txend], now := s.now + dur ps } := by
  have hfold : s.transmit sch ps = ((s.startTransmit sch s.q).performAll ps).finish := rfl
  rw [hfold, performAll_eq ps (g := s.gate) (b := true) rfl, startTransmit_eq]
  simp [finish_eq, State.gate]

/-- Settles O42: both sides as one record, by `steps_startTransmit_finish` and `transmit_eq`. -/
theorem bigStepIsSmallSteps : Obligations.BigStepIsSmallSteps := by
  intro sch ps s _ hq hs
  rw [steps_startTransmit_finish hs, transmit_eq, hq]

theorem steps_one {s t : State} (h : step s = .next t) : steps 1 s = .next t := by simp [steps, h]

/-- Settles O43: the first `k` pulses go out by `steps_startTransmit`, and the next step takes the asserted sample. -/
theorem resetCutsTransmission : Obligations.ResetCutsTransmission := by
  intro sch ps k s more _ hk hline
  have hlen : (ps.take k).length = k := List.length_take_of_le hk
  have hquiet : s.Quiet (ps.take k).length := by
    intro b hmem
    rw [hline, hlen, List.take_left' List.length_replicate] at hmem
    exact List.eq_of_mem_replicate hmem
  have hdrop : s.rstLine.drop k = true :: more := by rw [hline, List.drop_left' List.length_replicate]
  have hrun := steps_startTransmit (rest := ps.drop k) hquiet sch
  rw [List.take_append_drop, hlen, hdrop] at hrun
  have hreset := (steps_add (k := 1) hrun).trans (steps_one (step_of_rst rfl))
  exact ⟨_, hreset, resetBlock_busy _, resetBlock_gate _, rfl, rfl, rfl, rfl, rfl⟩

/-- A busy block whose STATUS holds its two flags alone performs its queue and finishes. -/
theorem steps_of_busy {s : State} (hstatus : s.status = statusWord s.gate s.busy) (hb : s.busy = true)
    (hs : s.Quiet (s.q.length + 1)) :
    steps (s.q.length + 1) s =
      .next { s with status := statusWord (gateAfter s.gate s.q) false, q := [],
                     trace := s.trace ++ s.q.map Pulse.event ++ [.txend], now := s.now + dur s.q,
                     rstLine := s.rstLine.drop (s.q.length + 1) } := by
  have hpulses := steps_eq_performAll (rest := []) hb (List.append_nil _).symm (hs.mono (Nat.le_succ _))
  rw [performAll_eq s.q (g := s.gate) (b := true) (hb ▸ hstatus)] at hpulses
  rw [steps_add hpulses, steps, step_of_queue_empty]
  case hr => exact (hs.of_drop rfl).rst_eq_false
  case hb => exact busy_of_status rfl
  case hq => rfl
  simp [steps, finish_eq, State.gate, State.sampleRst]

/-- Settles O44: at most 130 pulses are queued, the run is `steps_of_busy`, and a transmission ends with the gate closed. -/
theorem transmissionAlwaysEnds : Obligations.TransmissionAlwaysEnds := by
  intro s h hb hs
  have hlen : s.q.length + 1 ≤ 131 := Nat.succ_le_succ h.queueBounded
  refine ⟨hlen, _, steps_of_busy (statusWord_of_reserved s h.statusReserved) hb (hs.mono hlen), busy_of_status rfl, ?_, by simp⟩
  exact gate_of_status (by rw [h.endsInSpace hb])

end Sys2Proof.Machine

/-! ## What a step may change, register by register (10_state.md; R62, 20_memory.md) -/

namespace Sys2Proof.Machine

/-- Settles O45: each kind of step records its own event, SETTIMING, SETFREQ and the idle step none. -/
theorem traceOnlyGrows : Obligations.TraceOnlyGrows := by
  intro s t h
  cases step_cases h with
  | reset hr => exact .inr ⟨_, rfl⟩
  | pulse hr hb hq => exact .inr ⟨_, perform_trace _ _⟩
  | finish hr hb hq => exact .inr ⟨_, rfl⟩
  | idle hr hb hd => exact .inl rfl
  | issue hr hb hd hw ha =>
    cases ha with
    | send hsend => exact .inr ⟨_, rfl⟩
    | settiming p d => exact .inl rfl
    | setfreq fh fl dp => exact .inl rfl
    | carrierOff => exact .inr ⟨_, rfl⟩
    | carrierOn en hen => exact .inr ⟨_, rfl⟩

/-- Settles O46: of the kinds of step only a reset, a send command and a nonzero CARRIER write the active registers. -/
theorem latchOnlyAtItsTwoPlaces : Obligations.LatchOnlyAtItsTwoPlaces := by
  intro s t h
  cases step_cases h with
  | reset hr => exact .inr (.inl hr)
  | pulse hr hb hq => exact .inl ⟨by simp, by simp⟩
  | finish hr hb hq => exact .inl ⟨rfl, rfl⟩
  | idle hr hb hd => exact .inl ⟨rfl, rfl⟩
  | issue hr hb hd hw ha =>
    cases ha with
    | send hsend => exact .inr (.inr ⟨hb, rfl, rfl, _, _, hd, .inl (isSend_of_sendOf hsend)⟩)
    | settiming p d => exact .inl ⟨rfl, rfl⟩
    | setfreq fh fl dp => exact .inl ⟨rfl, rfl⟩
    | carrierOff => exact .inl ⟨rfl, rfl⟩
    | carrierOn en hen => exact .inr (.inr ⟨hb, rfl, rfl, _, _, hd, .inr ⟨en, hen, rfl⟩⟩)

/-- Settles O47: of the kinds of step only a reset, SETTIMING and SETFREQ write the programmed registers. -/
theorem programmedRegistersWriters : Obligations.ProgrammedRegistersWriters := by
  intro s t h
  cases step_cases h with
  | reset hr => exact .inr (.inl hr)
  | pulse hr hb hq => exact .inl ⟨by rw [perform_eq]; rfl, by rw [perform_eq]; rfl⟩
  | finish hr hb hq => exact .inl ⟨rfl, rfl⟩
  | idle hr hb hd => exact .inl ⟨rfl, rfl⟩
  | issue hr hb hd hw ha =>
    cases ha with
    | send hsend => exact .inl ⟨rfl, rfl⟩
    | settiming p d => exact .inr (.inr ⟨hb, _, _, hd, .inl ⟨p, d, rfl⟩⟩)
    | setfreq fh fl dp => exact .inr (.inr ⟨hb, _, _, hd, .inr ⟨fh, fl, dp, rfl⟩⟩)
    | carrierOff => exact .inl ⟨rfl, rfl⟩
    | carrierOn en hen => exact .inl ⟨rfl, rfl⟩

/-- What a step does to the gate: one of its writers drives it, or it stays. -/
theorem gate_of_step {s t : State} (h : step s = .next t) :
    t.gate = s.gate ∨ (s.rst = true ∧ t.gate = false) ∨
      (s.rst = false ∧ s.busy = true ∧ ∃ e rest, s.q = e :: rest ∧ t.gate = e.isMark) ∨
      (s.rst = false ∧ s.busy = false ∧ ∃ en rest, decode s.port = .command (.carrier en) rest ∧ t.gate = !(en == 0#8)) := by
  cases step_cases h with
  | reset hr => exact .inr (.inl ⟨hr, resetBlock_gate _⟩)
  | pulse hr hb hq => exact .inr (.inr (.inl ⟨hr, hb, _, _, hq, perform_gate _ _⟩))
  | finish hr hb hq => exact .inl (setBusy_gate _ _)
  | idle hr hb hd => exact .inl rfl
  | issue hr hb hd hw ha =>
    cases ha with
    | send hsend => exact .inl (setBusy_gate _ _)
    | settiming p d => exact .inl rfl
    | setfreq fh fl dp => exact .inl rfl
    | carrierOff => exact .inr (.inr (.inr ⟨hr, hb, _, _, hd, setGate_gate _ _⟩))
    | carrierOn en hen => exact .inr (.inr (.inr ⟨hr, hb, _, _, hd, (setGate_gate _ _).trans (by simp [hen])⟩))

/-- Settles O48: the four cases of `gate_of_step`, by the kind of pulse and by CARRIER's operand. -/
theorem gateWriters : Obligations.GateWriters := by
  intro s t h
  obtain hg | ⟨hr, hg⟩ | ⟨hr, hb, e, rest, hq, hg⟩ | ⟨hr, hb, en, rest, hd, hg⟩ := gate_of_step h
  · simp +contextual [hg]
  · simp [hg, hr]
  · cases e <;> simp [hg, hr, hb, hq, Pulse.isMark]
  · by_cases hen : en = 0#8
    · subst hen; simp [hg, hb, hd]
    · simp [hg, hr, hb, hd, hen]

/-- Settles O49: BUSY is raised by `startTransmit` and cleared by `finish` and a reset; every other kind of step leaves it. -/
theorem busyWriters : Obligations.BusyWriters := by
  intro s t h
  cases step_cases h with
  | reset hr => exact ⟨fun _ ht => by simp at ht, fun _ _ => .inl hr⟩
  | pulse hr hb hq => simp [hb]
  | finish hr hb hq => exact ⟨fun hi => by simp [hb] at hi, fun _ _ => .inr ⟨hq, rfl⟩⟩
  | idle hr hb hd => simp [hb]
  | issue hr hb hd hw ha =>
    refine ⟨fun _ ht => ⟨hr, _, _, hd, ?_, hw⟩, fun hi => by simp [hb] at hi⟩
    cases ha with
    | send hsend => exact isSend_of_sendOf hsend
    | settiming p d => simp [hb] at ht
    | setfreq fh fl dp => simp [State.setFreq, hb] at ht
    | carrierOff => simp [State.carrierOff, hb] at ht
    | carrierOn en hen => simp [State.carrierOn, hb] at ht

/-- Settles O50: NOW is written by `perform` and a reset alone. -/
theorem clockCountsPulsesOnly : Obligations.ClockCountsPulsesOnly := by
  intro s t h
  cases step_cases h with
  | reset hr => simp [hr]
  | pulse hr hb hq => simp [hr, hb, hq]
  | finish hr hb hq => simp [hr, hb, hq, State.finish]
  | idle hr hb hd => simp [hr, hb]
  | issue hr hb hd hw ha =>
    have hnow : t.now = s.now := by
      cases ha with
      | send hsend => rfl
      | settiming p d => rfl
      | setfreq fh fl dp => rfl
      | carrierOff => rfl
      | carrierOn en hen => rfl
    simp [hr, hb, hnow]

/-! ### What a step does not see -/

/-- Settles O51: neither a reset nor the sequencer reads or writes the port. -/
theorem portIgnoredWhileBusy : Obligations.PortIgnoredWhileBusy := by
  intro s bytes hb
  cases hr : s.rst with
  | true => exact ⟨_, step_of_rst hr, rfl, step_of_rst hr⟩
  | false =>
    by_cases hq : s.q = []
    · exact ⟨_, step_of_queue_empty hr hb hq, rfl, step_of_queue_empty (s := { s with port := bytes }) hr hb hq⟩
    · obtain ⟨e, rest, hq⟩ := List.exists_cons_of_ne_nil hq
      exact ⟨_, step_of_pulse_eq hr hb hq, rfl, step_of_pulse_eq (s := { s with port := bytes }) hr hb hq⟩

/-- Settles O52: a reset draws the programmed registers anew, SETTIMING and SETFREQ overwrite them, and every other kind of step but the
two that latch carries them along. -/
theorem carrierValuesWaitForLatch : Obligations.CarrierValuesWaitForLatch := by
  intro s t p d h hlatch
  cases step_cases h with
  | reset hr => exact ⟨_, _, step_of_rst hr⟩
  | @pulse hr hb e rest hq =>
    refine ⟨p, d, (step_of_pulse (s := { s with irPeriod := p, irDuty := d }) hr hb hq).trans ?_⟩
    cases e <;> rfl
  | finish hr hb hq => exact ⟨p, d, step_of_queue_empty hr hb hq⟩
  | idle hr hb hd => exact ⟨p, d, step_of_incomplete hr hb hd⟩
  | @issue hr hb i rest hd hw _ ha =>
    obtain ⟨hsend', hcarrier⟩ := hlatch hr hb i rest hd
    have hstep := step_of_command (s := { s with irPeriod := p, irDuty := d }) hr hb hd
    have hb' : (State.setPort rest (State.sampleRst { s with irPeriod := p, irDuty := d })).busy = false := hb
    cases ha with
    | send hsend => simp [isSend_of_sendOf hsend] at hsend'
    | settiming p' d' => exact ⟨_, _, hstep.trans (settimingStoresBoth.2 p' d' _ hb')⟩
    | setfreq fh fl dp => exact ⟨_, _, hstep.trans (exec_setfreq_of_idle hb' fh fl dp)⟩
    | carrierOff => exact ⟨p, d, hstep.trans ((exec_carrier_zero _).trans (whenReady_of_idle hb' _))⟩
    | carrierOn en hen => exact absurd rfl (hcarrier en hen)

end Sys2Proof.Machine

/-! ## Operand arithmetic: SENDRAW's code and the laws of SETFREQ (30_encoding.md, section 3; 41_timer_control.md, section 2) -/

namespace Sys2Proof.Machine

/-- The low 12 bits of a pair of bytes, zero-extended (R78, 30_encoding.md). -/
theorem toNat_lowTwelveBits (hi lo : Byte) :
    (((hi ++ lo : BitVec 16).extractLsb' 0 12).setWidth 32).toNat = (256 * hi.toNat + lo.toNat) % 4096 := by
  rw [← show freqOf hi lo = 256 * hi.toNat + lo.toNat from rfl, freqOf_eq_append_toNat]
  rw [BitVec.toNat_setWidth, BitVec.extractLsb'_toNat, Nat.shiftRight_zero]
  omega

/-- Settles O9: both orders are `toNat_lowTwelveBits`. -/
theorem rawCodeIsLowTwelveBits : Obligations.RawCodeIsLowTwelveBits :=
  fun a0 a1 => ⟨toNat_lowTwelveBits a0 a1, toNat_lowTwelveBits a1 a0⟩

theorem timerValue_eq (clockHz freq : Nat) : timerValue clockHz freq = ((clockHz / freq : Nat) : Int) - 1 := by
  simp [timerValue]

/-- Settles O13: floor division is read by `Int.le_ediv_iff_mul_le`. -/
theorem setfreqArithmeticLaws : Obligations.SetfreqArithmeticLaws := by
  intro clockHz freq hf
  rw [timerValue_eq, ← Nat.div_eq_zero_iff_lt hf]
  generalize clockHz / freq = quotient
  refine ⟨by omega, by omega, by omega, fun tv dp htv hdp => ?_⟩
  have hpos : (0 : Int) < dp := by omega
  refine ⟨fun h => ?_, Int.mul_ediv_cancel _ (by decide), ?_⟩
  · exact (Int.le_ediv_iff_mul_le hpos).mpr (Int.mul_le_mul_of_nonneg_left (by omega) htv)
  · exact Int.le_ediv_iff_mul_le (a := 256) hpos

theorem freqPeriod_eq_none {clockHz freq : Nat} (h : freq = 0 ∨ timerValue clockHz freq < 0 ∨ 255 < timerValue clockHz freq) :
    freqPeriod clockHz freq = none := by
  rw [freqPeriod, fitByte, ite_eq_left_iff]
  intro hf
  exact if_neg (by omega)

theorem freqDuty_eq_none {clockHz freq dp : Nat}
    (h : freq = 0 ∨ dp = 0 ∨ timerValue clockHz freq < 0 ∨ 255 < timerValue clockHz freq ∨ 255 < dutyValue (timerValue clockHz freq) dp) :
    freqDuty clockHz freq dp = none := by
  rw [freqDuty, fitByte, ite_eq_left_iff]
  intro hf
  rw [ite_eq_left_iff]
  intro hopen
  exact if_neg (by omega)

/-- Settles O12: where a formula's result is open, `freqPeriod` or `freqDuty` is `none` and the register takes its free value. -/
theorem setfreqOpenResultsAreDrawn : Obligations.SetfreqOpenResultsAreDrawn := by
  intro clockHz fh fl dp s
  refine ⟨fun h => ?_, fun h => ?_, fun hf h0 h255 => setFreq_irPeriod_toNat hf h0 h255 dp s⟩
  · rw [setFreq_eq, freqPeriod_eq_none h, freqDuty_eq_none (by tauto)]
    exact ⟨rfl, rfl⟩
  · have hdp : dp.toNat = 0 ∨ 255 < dutyValue (timerValue clockHz (freqOf fh fl)) dp.toNat := h.imp_left (congrArg BitVec.toNat)
    rw [setFreq_eq, freqDuty_eq_none (by tauto)]
    rfl

end Sys2Proof.Machine

/-! ## The register file, the output and the host's table (10_state.md, 44_datagram_framing.md) -/

namespace Sys2Proof.Machine

theorem statusWord_getLsbD_of_le {j : Nat} (hj : 2 ≤ j) (g b : Bool) : (statusWord g b).getLsbD j = false := by
  rw [statusWord, BitVec.getLsbD_append, if_neg (by omega), BitVec.getLsbD_append, if_neg (by omega), BitVec.getLsbD_zero]

/-- Settles O53: STATUS reads as the word of its two flags. -/
theorem registerFileView : Obligations.RegisterFileView := by
  refine ⟨rfl, rfl, rfl, rfl, rfl, fun n hn => ?_, fun s => ⟨rfl, rfl, rfl, rfl, ?_, ?_, ?_⟩⟩
  · obtain ⟨k, rfl⟩ := Nat.exists_eq_add_of_le' hn
    rfl
  · exact statusWord_gate _ _
  · exact statusWord_busy _ _
  · exact fun j hj => statusWord_getLsbD_of_le hj _ _

theorem irOut_of_gate_closed {s : State} (h : s.gate = false) (count : Nat) : s.irOut count = Config.idleLevel := by
  simp [State.irOut, h]

theorem irOut_of_gate_open {s : State} (h : s.gate = true) (count : Nat) :
    s.irOut count = carrierShape Config.cfg.clockHz s.actPeriod s.actDuty count := by
  simp [State.irOut, h]

/-- R124 (41_timer_control.md): the carrier repeats every `period + 1` counts. -/
theorem carrierShape_add_period (clockHz : Nat) (p d : Byte) (count : Nat) :
    carrierShape clockHz p d (count + (p.toNat + 1)) = carrierShape clockHz p d count := by
  rw [carrierShape, carrierShape, Nat.add_mod_right]

/-- Settles O54: the idle level is constant and the waveform repeats. -/
theorem outputFollowsGate : Obligations.OutputFollowsGate := by
  intro s count
  refine ⟨fun h => irOut_of_gate_closed h count, fun h => irOut_of_gate_open h count, ?_⟩
  cases h : s.gate with
  | false => rw [irOut_of_gate_closed h, irOut_of_gate_closed h]
  | true => rw [irOut_of_gate_open h, irOut_of_gate_open h, carrierShape_add_period]

/-- Settles O58: of the rows of the host's table only `*` and the default reach the block as a SENDDG, and both build it by a template. -/
theorem hostDatagramsCarryChecksum : Obligations.HostDatagramsCarryChecksum := by
  intro g u op a b0 b1 b2 b3 b4 b5 b6 b7 hop h
  unfold hostReach at h
  split_ifs at h
  all_goals cases h -- the rows that are no SENDDG
  all_goals exact ⟨rfl, rfl⟩ -- the two templates

end Sys2Proof.Machine

/-! ## The envelope of a pulse list is its waveform (R108, 40_pulse_primitives.md) -/

namespace Sys2Proof.Machine

/-! ### The waveform, pulse by pulse -/

theorem levelAt_cons_of_lt {e : Pulse} {t : Nat} (h : t < e.dur) (ps : List Pulse) : levelAt (e :: ps) t = some e.isMark := if_pos h

/-- Past its first pulse the waveform is that of the rest. -/
theorem levelAt_cons_add (e : Pulse) (ps : List Pulse) (t : Nat) : levelAt (e :: ps) (t + e.dur) = levelAt ps t := by
  rw [levelAt, if_neg (by omega), Nat.add_sub_cancel]

theorem levelAt_cons_of_le {e : Pulse} {t : Nat} (h : e.dur ≤ t) (ps : List Pulse) : levelAt (e :: ps) t = levelAt ps (t - e.dur) :=
  if_neg (by omega)

theorem levelAt_cons_congr {ps qs : List Pulse} (h : ∀ t, levelAt ps t = levelAt qs t) (e : Pulse) (t : Nat) :
    levelAt (e :: ps) t = levelAt (e :: qs) t := by
  rw [levelAt, levelAt, h]

/-- Two pulses of one kind are one pulse of their total duration. -/
theorem levelAt_cons_cons {a b e : Pulse} (ha : a.isMark = e.isMark) (hb : b.isMark = e.isMark) (hdur : e.dur = a.dur + b.dur)
    (ps : List Pulse) (t : Nat) : levelAt (a :: b :: ps) t = levelAt (e :: ps) t := by
  simp only [levelAt, ha, hb, hdur]
  split_ifs
  any_goals omega
  · rfl
  · rfl
  · rw [Nat.sub_sub]

theorem levelAt_append_space_zero (ps : List Pulse) (t : Nat) : levelAt (ps ++ [.space 0]) t = levelAt ps t := by
  induction ps generalizing t with
  | nil => rfl
  | cons e ps ih => exact levelAt_cons_congr ih e t

/-! ### The envelope keeps the waveform and the duration -/

/-- What `joinPulse` can do: put the pulse in front of a list that does not begin with its kind, or lengthen the first pulse. -/
theorem joinPulse_cases (p : Pulse) (ps : List Pulse) :
    (joinPulse p ps = p :: ps ∧ ∀ e ∈ ps.head?, p.isMark ≠ e.isMark) ∨
      ∃ b e rest, ps = b :: rest ∧ joinPulse p ps = e :: rest ∧
        p.isMark = e.isMark ∧ b.isMark = e.isMark ∧ e.dur = p.dur + b.dur := by
  cases ps with
  | nil => left; cases p <;> simp [joinPulse]
  | cons b rest =>
    cases p with
    | mark d =>
      cases b with
      | mark d' => exact .inr ⟨_, .mark (d + d'), rest, rfl, rfl, rfl, rfl, rfl⟩
      | space d' => left; simp [joinPulse, Pulse.isMark]
    | space d =>
      cases b with
      | mark d' => left; simp [joinPulse, Pulse.isMark]
      | space d' => exact .inr ⟨_, .space (d + d'), rest, rfl, rfl, rfl, rfl, rfl⟩

theorem levelAt_joinPulse (p : Pulse) (ps : List Pulse) (t : Nat) : levelAt (joinPulse p ps) t = levelAt (p :: ps) t := by
  obtain ⟨h, -⟩ | ⟨b, e, rest, rfl, h, hp, hb, hdur⟩ := joinPulse_cases p ps
  · rw [h]
  · rw [h, levelAt_cons_cons hp hb hdur]

theorem levelAt_mergeRuns (ps : List Pulse) (t : Nat) : levelAt (mergeRuns ps) t = levelAt ps t := by
  induction ps generalizing t with
  | nil => rfl
  | cons p ps ih => rw [mergeRuns, levelAt_joinPulse, levelAt_cons_congr ih]

/-- A pulse of no length is never seen. -/
theorem levelAt_filter (ps : List Pulse) (t : Nat) : levelAt (ps.filter fun e => e.dur != 0) t = levelAt ps t := by
  induction ps generalizing t with
  | nil => rfl
  | cons p ps ih =>
    by_cases hp : p.dur = 0
    · rw [List.filter_cons_of_neg (by simp [hp]), ih, levelAt_cons_of_le (by omega), hp, Nat.sub_zero]
    · rw [List.filter_cons_of_pos (by simp [hp]), levelAt_cons_congr ih]

theorem levelAt_envelope (ps : List Pulse) (t : Nat) : levelAt (envelope ps) t = levelAt ps t := by
  rw [envelope, levelAt_mergeRuns, levelAt_filter]

/-- The waveform ends when the list's duration is over. -/
theorem levelAt_isSome (ps : List Pulse) (t : Nat) : (levelAt ps t).isSome ↔ t < dur ps := by
  induction ps generalizing t with
  | nil => simp [levelAt]
  | cons e ps ih =>
    rw [dur_cons]
    by_cases h : t < e.dur
    · rw [levelAt_cons_of_lt h]; exact iff_of_true rfl (by omega)
    · rw [levelAt_cons_of_le (by omega), ih]; omega

theorem dur_eq_of_levelAt_eq {ps qs : List Pulse} (h : ∀ t, levelAt ps t = levelAt qs t) : dur ps = dur qs := by
  have hlt (t : Nat) : t < dur ps ↔ t < dur qs := by rw [← levelAt_isSome, h, levelAt_isSome]
  have hps := hlt (dur ps)
  have hqs := hlt (dur qs)
  omega

/-! ### The normal form -/

/-- No pulse of no length, and no two neighbours of one kind (R108, 40_pulse_primitives.md). -/
def NormalForm (ps : List Pulse) : Prop :=
  (∀ e ∈ ps, 0 < e.dur) ∧ ps.IsChain fun a b => a.isMark ≠ b.isMark

theorem NormalForm.tail {e : Pulse} {ps : List Pulse} (h : NormalForm (e :: ps)) : NormalForm ps :=
  ⟨fun a ha => h.1 a (List.mem_cons_of_mem _ ha), h.2.tail⟩

theorem normalForm_cons_iff {e : Pulse} {ps : List Pulse} :
    NormalForm (e :: ps) ↔ 0 < e.dur ∧ (∀ b ∈ ps.head?, e.isMark ≠ b.isMark) ∧ NormalForm ps := by
  simp only [NormalForm, List.isChain_cons, List.forall_mem_cons]
  tauto

theorem NormalForm.joinPulse {p : Pulse} {ps : List Pulse} (hp : 0 < p.dur) (h : NormalForm ps) : NormalForm (joinPulse p ps) := by
  obtain ⟨hj, hhead⟩ | ⟨b, e, rest, rfl, hj, -, hb, hdur⟩ := joinPulse_cases p ps
  · rw [hj]
    exact normalForm_cons_iff.mpr ⟨hp, hhead, h⟩
  · rw [normalForm_cons_iff, hb] at h
    obtain ⟨-, hhead, hrest⟩ := h
    rw [hj]
    exact normalForm_cons_iff.mpr ⟨by omega, hhead, hrest⟩

theorem normalForm_mergeRuns {ps : List Pulse} (h : ∀ e ∈ ps, 0 < e.dur) : NormalForm (mergeRuns ps) := by
  induction ps with
  | nil => exact ⟨nofun, .nil⟩
  | cons p ps ih =>
    obtain ⟨hp, hps⟩ := List.forall_mem_cons.mp h
    exact (ih hps).joinPulse hp

theorem normalForm_envelope (ps : List Pulse) : NormalForm (envelope ps) :=
  normalForm_mergeRuns fun e he => by simpa [Nat.pos_iff_ne_zero] using (List.mem_filter.mp he).2

/-! ### A waveform has one normal form -/

/-- Right after its first pulse, a normal form's waveform has ended or has changed. -/
theorem NormalForm.levelAt_dur_ne {e : Pulse} {ps : List Pulse} (h : NormalForm (e :: ps)) :
    levelAt (e :: ps) e.dur ≠ some e.isMark := by
  obtain ⟨-, hhead, hps⟩ := normalForm_cons_iff.mp h
  rw [levelAt_cons_of_le le_rfl, Nat.sub_self]
  cases ps with
  | nil => simp [levelAt]
  | cons b rest =>
    rw [levelAt_cons_of_lt (hps.1 b List.mem_cons_self)]
    simpa [eq_comm] using hhead b rfl

theorem Pulse.eq_of_isMark_of_dur {a b : Pulse} (hkind : a.isMark = b.isMark) (hdur : a.dur = b.dur) : a = b := by
  cases a with
  | mark d =>
    cases b with
    | mark d' => exact congrArg Pulse.mark hdur
    | space d' => cases hkind
  | space d =>
    cases b with
    | mark d' => cases hkind
    | space d' => exact congrArg Pulse.space hdur

theorem NormalForm.head_dur_le {a b : Pulse} {ps qs : List Pulse} (ha : NormalForm (a :: ps)) (hkind : a.isMark = b.isMark)
    (h : ∀ t, levelAt (a :: ps) t = levelAt (b :: qs) t) : b.dur ≤ a.dur := by
  by_contra hlt
  refine ha.levelAt_dur_ne ?_
  rw [h, levelAt_cons_of_lt (by omega), hkind]

theorem NormalForm.eq_of_levelAt_eq {ps qs : List Pulse} (hps : NormalForm ps) (hqs : NormalForm qs)
    (h : ∀ t, levelAt ps t = levelAt qs t) : ps = qs := by
  induction ps generalizing qs with
  | nil =>
    cases qs with
    | nil => rfl
    | cons b qs =>
      have h0 := h 0
      rw [levelAt_cons_of_lt (hqs.1 b List.mem_cons_self)] at h0
      cases h0
  | cons a ps ih =>
    have ha := hps.1 a List.mem_cons_self
    cases qs with
    | nil =>
      have h0 := h 0
      rw [levelAt_cons_of_lt ha] at h0
      cases h0
    | cons b qs =>
      have hkind : a.isMark = b.isMark := by
        have h0 := h 0
        rwa [levelAt_cons_of_lt ha, levelAt_cons_of_lt (hqs.1 b List.mem_cons_self), Option.some.injEq] at h0
      have hdur : a.dur = b.dur :=
        le_antisymm (hqs.head_dur_le hkind.symm fun t => (h t).symm) (hps.head_dur_le hkind h)
      obtain rfl := Pulse.eq_of_isMark_of_dur hkind hdur
      rw [ih hps.tail hqs.tail fun t => by rw [← levelAt_cons_add a ps, h, levelAt_cons_add]]

theorem envelope_eq_iff (ps qs : List Pulse) : envelope ps = envelope qs ↔ ∀ t, levelAt ps t = levelAt qs t := by
  refine ⟨fun h t => ?_, fun h => ?_⟩
  · rw [← levelAt_envelope, h, levelAt_envelope]
  · refine (normalForm_envelope ps).eq_of_levelAt_eq (normalForm_envelope qs) fun t => ?_
    rw [levelAt_envelope, levelAt_envelope, h]

/-- Settles O27: the envelope is a normal form with the list's waveform, and a waveform has one normal form; that it is its own
envelope, and that a trailing `SPACE(0)` does not change it, are equalities of waveforms. -/
theorem envelopeIsTheWaveform : Obligations.EnvelopeIsTheWaveform := by
  refine ⟨fun ps => ⟨(normalForm_envelope ps).1, (normalForm_envelope ps).2, ?_, ?_, ?_⟩, envelope_eq_iff⟩
  · exact dur_eq_of_levelAt_eq (levelAt_envelope ps)
  · exact (envelope_eq_iff _ _).mpr (levelAt_envelope ps)
  · exact (envelope_eq_iff _ _).mpr (levelAt_append_space_zero ps)

end Sys2Proof.Machine
